-- ==== Sys2Proof/Word.lean ====
section
/-! DEFINITION. The word types of the DMG core: a byte (8 bits) and a word (16 bits). 10_state R10, R11, R14, R15;
20_memory R40. All register values are unsigned and wrap (R64, R184). -/

namespace Sys2Proof

/-- An 8-bit register or a byte of memory (R10, R40). -/
abbrev Byte := BitVec 8

/-- A 16-bit register pair, SP, PC or an address (R11, R14, R15, R40). -/
abbrev Word := BitVec 16

end Sys2Proof
end

