-- ==== Sys2Proof/Config.lean ====
section
/-! DEFINITION. The parameters of 00_scope section 5. The four that a step reads travel with the state as its
constant field `cfg` (log 1); `CART` and `RESET_REGS` are read at power-on only. -/

namespace Sys2Proof

/-- The arguments of the machine that a step reads (00_scope section 5; R22, R47, R254, R367). Both values of each
are modelled. -/
structure Config where
  /-- `BOOT_ROM`: absent, or its 256 bytes (R22, R402, C3). -/
  bootRom : Option (Vector Byte 256)
  /-- `TEST_LOG_MODE`: CPU reads of 0xFF44 return 0x90 (R47, D26). -/
  testLogMode : Bool
  /-- `EI_DELAY = 1`: `EI` takes effect after the next instruction (R254, D6). -/
  eiDelay : Bool
  /-- `SPRITE16_YFLIP_SWAPS_TILES`: a Y flip of an 8x16 sprite turns all sixteen rows (R367, D24). -/
  sprite16YFlipSwapsTiles : Bool
  deriving DecidableEq, Repr

/-- The spec's decided values: no boot ROM, `TEST_LOG_MODE = false`, `EI_DELAY = 0`,
`SPRITE16_YFLIP_SWAPS_TILES = false` (00_scope section 5). Log 1, log 3. -/
def Config.standard : Config :=
  { bootRom := none, testLogMode := false, eiDelay := false, sprite16YFlipSwapsTiles := false }

/-- `RESET_REGS`: the values of A, F, B, C, D, E, H, L and SP at reset (R37, D2, OPEN). -/
structure ResetRegs where
  a : Byte
  f : Byte
  b : Byte
  c : Byte
  d : Byte
  e : Byte
  h : Byte
  l : Byte
  sp : Word
  deriving DecidableEq, Repr

/-- PRESUMED. The default `RESET_REGS` without a boot ROM (R37, D2, G16). Log 2. -/
def ResetRegs.withoutBootRom : ResetRegs :=
  { a := 0x01, f := 0xB0, b := 0x00, c := 0x13, d := 0x00, e := 0xD8, h := 0x01, l := 0x4D, sp := 0xFFFE }

/-- The default `RESET_REGS` with a boot ROM (R37, D2). -/
def ResetRegs.withBootRom : ResetRegs :=
  { a := 0, f := 0, b := 0, c := 0, d := 0, e := 0, h := 0, l := 0, sp := 0 }

/-- `CYCLES_PER_FRAME` (R301, R422, C2). -/
def cyclesPerFrame : Nat := 70224

end Sys2Proof
end

