-- ==== Sys2Proof/Syntax.lean ====
section
/-! DEFINITION. The instructions of the DMG core: one constructor of `Instr` for each mnemonic of
`spec/opcode_table.json`, with the operands of its encoding. 30_encoding R80 to R94. -/

namespace Sys2Proof

/-- The seven registers an `r8` field can name; index 6, the byte at (HL), is no register and has instruction forms of
its own (R83). -/
inductive Reg8 where
  | b | c | d | e | h | l | a
  deriving DecidableEq, Repr

/-- The `r16` field (R84). -/
inductive R16 where
  | bc | de | hl | sp
  deriving DecidableEq, Repr

/-- The `r16` field of the stack group (R84). -/
inductive R16S where
  | bc | de | hl | af
  deriving DecidableEq, Repr

/-- The condition field (R85). -/
inductive Cond where
  | nz | z | nc | c
  deriving DecidableEq, Repr

/-- The instructions, in the table's order. Immediates: `n8` and `s8` are the byte that follows the opcode (`s8` is read
as signed by the meaning), `n16` the little-endian word (R88). -/
inductive Instr where
  -- the unprefixed page, 0x00 to 0x3F
  | nop
  | ldRrN16 (p : R16) (n : Word)
  | ldBcA
  | ldDeA
  | ldHlIncA
  | ldHlDecA
  | incRr (p : R16)
  | incR (r : Reg8)
  | incHl
  | decR (r : Reg8)
  | decHl
  | ldRN8 (r : Reg8) (n : Byte)
  | ldHlN8 (n : Byte)
  | rlca
  | rrca
  | rla
  | rra
  | ldN16Sp (n : Word)
  | addHlRr (p : R16)
  | ldABc
  | ldADe
  | ldAHlInc
  | ldAHlDec
  | decRr (p : R16)
  /-- The second byte is fetched and ignored (R252). -/
  | stop (pad : Byte)
  | jrS8 (e : Byte)
  | jrCcS8 (cc : Cond) (e : Byte)
  | daa
  | cpl
  | scf
  | ccf
  -- 0x40 to 0xBF
  | ldRR (dst src : Reg8)
  | ldRHl (dst : Reg8)
  | ldHlR (r : Reg8)
  | halt
  | addAR (r : Reg8)
  | addAHl
  | addAN8 (n : Byte)
  | adcAR (r : Reg8)
  | adcAHl
  | adcAN8 (n : Byte)
  | subAR (r : Reg8)
  | subAHl
  | subAN8 (n : Byte)
  | sbcAR (r : Reg8)
  | sbcAHl
  | sbcAN8 (n : Byte)
  | andAR (r : Reg8)
  | andAHl
  | andAN8 (n : Byte)
  | xorAR (r : Reg8)
  | xorAHl
  | xorAN8 (n : Byte)
  | orAR (r : Reg8)
  | orAHl
  | orAN8 (n : Byte)
  | cpAR (r : Reg8)
  | cpAHl
  | cpAN8 (n : Byte)
  -- 0xC0 to 0xFF
  | retCc (cc : Cond)
  | popRr (p : R16S)
  | popAf
  | jpCcN16 (cc : Cond) (n : Word)
  | jpN16 (n : Word)
  | callCcN16 (cc : Cond) (n : Word)
  | pushRr (p : R16S)
  | pushAf
  | rst (t : Fin 8)
  | ret
  /-- The row `PREFIX CB`: the byte 0xCB with the CB-page opcode `op2` after it (R255). Log 11. -/
  | prefixCb (op2 : Byte)
  | callN16 (n : Word)
  | reti
  | ldhN8A (n : Byte)
  | ldhCA
  | ldhAN8 (n : Byte)
  | ldhAC
  | addSpS8 (e : Byte)
  | jpHl
  | ldN16A (n : Word)
  | ldAN16 (n : Word)
  | di
  | ei
  | ldHlSpS8 (e : Byte)
  | ldSpHl
  /-- One of the eleven illegal opcodes, a no-operation on this machine (R91, R256). Log 12. -/
  | illegal (op : Byte)
  -- the CB page
  | rlcR (r : Reg8)
  | rlcHl
  | rrcR (r : Reg8)
  | rrcHl
  | rlR (r : Reg8)
  | rlHl
  | rrR (r : Reg8)
  | rrHl
  | slaR (r : Reg8)
  | slaHl
  | sraR (r : Reg8)
  | sraHl
  | swapR (r : Reg8)
  | swapHl
  | srlR (r : Reg8)
  | srlHl
  | bitBR (b : Fin 8) (r : Reg8)
  | bitBHl (b : Fin 8)
  | resBR (b : Fin 8) (r : Reg8)
  | resBHl (b : Fin 8)
  | setBR (b : Fin 8) (r : Reg8)
  | setBHl (b : Fin 8)
  deriving DecidableEq, Repr

end Sys2Proof
end

