-- ==== Sys2Proof/WellFormed.lean ====
section
/-! DEFINITION. Which terms of `Instr` are instructions of the opcode table: `PUSH rr` and `POP rr` have no AF form of
their own (0xF5 and 0xF1 are the rows `PUSH AF` and `POP AF`, R137 to R140), and `illegal` names one of the eleven
illegal opcodes (R91). Every other operand type holds exactly the values its field has. -/

namespace Sys2Proof

/-- The eleven illegal opcodes (R91). -/
def illegalOpcodes : List Byte :=
  [0xD3, 0xDB, 0xDD, 0xE3, 0xE4, 0xEB, 0xEC, 0xED, 0xF4, 0xFC, 0xFD]

/-- The instruction is one the opcode table encodes (R91, R137, R139). -/
def Instr.wf : Instr → Bool
  | .popRr p => p != .af
  | .pushRr p => p != .af
  | .illegal op => illegalOpcodes.contains op
  | .nop | .ldRrN16 _ _ | .ldBcA | .ldDeA | .ldHlIncA | .ldHlDecA | .incRr _ | .incR _ | .incHl | .decR _
  | .decHl | .ldRN8 _ _ | .ldHlN8 _ | .rlca | .rrca | .rla | .rra | .ldN16Sp _ | .addHlRr _ | .ldABc | .ldADe
  | .ldAHlInc | .ldAHlDec | .decRr _ | .stop _ | .jrS8 _ | .jrCcS8 _ _ | .daa | .cpl | .scf | .ccf | .ldRR _ _
  | .ldRHl _ | .ldHlR _ | .halt | .addAR _ | .addAHl | .addAN8 _ | .adcAR _ | .adcAHl | .adcAN8 _ | .subAR _
  | .subAHl | .subAN8 _ | .sbcAR _ | .sbcAHl | .sbcAN8 _ | .andAR _ | .andAHl | .andAN8 _ | .xorAR _ | .xorAHl
  | .xorAN8 _ | .orAR _ | .orAHl | .orAN8 _ | .cpAR _ | .cpAHl | .cpAN8 _ | .retCc _ | .popAf | .jpCcN16 _ _
  | .jpN16 _ | .callCcN16 _ _ | .pushAf | .rst _ | .ret | .prefixCb _ | .callN16 _ | .reti | .ldhN8A _ | .ldhCA
  | .ldhAN8 _ | .ldhAC | .addSpS8 _ | .jpHl | .ldN16A _ | .ldAN16 _ | .di | .ei | .ldHlSpS8 _ | .ldSpHl
  | .rlcR _ | .rlcHl | .rrcR _ | .rrcHl | .rlR _ | .rlHl | .rrR _ | .rrHl | .slaR _ | .slaHl | .sraR _ | .sraHl
  | .swapR _ | .swapHl | .srlR _ | .srlHl | .bitBR _ _ | .bitBHl _ | .resBR _ _ | .resBHl _ | .setBR _ _
  | .setBHl _ => true

end Sys2Proof
end

