-- ==== Sys2Proof/Decode.lean ====
section
/-! DEFINITION. Bytes to instructions and back. 30_encoding R80 to R91: the unprefixed page is split by the fields
`x` (bits 7..6), `y` (bits 5..3) and `z` (bits 2..0) of the opcode byte, as the bit layouts of R81 are; the CB page the
same way (R87). Decoding is total on the bytes of an instruction (R82, R94); what is refused, by name, is a list that
ends inside one. The rows of `opcode_table.json` stand at the end. -/

namespace Sys2Proof

/-! ## Byte order and sign extension (R60, R66, R88) -/

/-- `hi : lo` (R11, R66). -/
def word (hi lo : Byte) : Word := hi ++ lo

/-- `w[15:8]`. -/
def hiByte (w : Word) : Byte := w.extractLsb' 8 8

/-- `w[7:0]`. -/
def loByte (w : Word) : Byte := w.extractLsb' 0 8

/-- `sext_8`, as a 16-bit value (R88). -/
def sext8 (v : Byte) : Word := v.signExtend 16

/-! ## Fields -/

/-- Bits 7..6 of an opcode byte. -/
def fieldX (op : Byte) : Fin 4 := ⟨op.toNat / 64 % 4, Nat.mod_lt _ (by decide)⟩

/-- Bits 5..3 of an opcode byte. -/
def fieldY (op : Byte) : Fin 8 := ⟨op.toNat / 8 % 8, Nat.mod_lt _ (by decide)⟩

/-- Bits 2..0 of an opcode byte. -/
def fieldZ (op : Byte) : Fin 8 := ⟨op.toNat % 8, Nat.mod_lt _ (by decide)⟩

/-- Bits 5..4: the upper two bits of `y`, the `r16` field. -/
def fieldP (y : Fin 8) : Fin 4 := ⟨y.val / 2 % 4, Nat.mod_lt _ (by decide)⟩

/-- Bits 4..3: the lower two bits of `y`, the condition field. -/
def fieldC (y : Fin 8) : Fin 4 := ⟨y.val % 4, Nat.mod_lt _ (by decide)⟩

/-- The register an `r8` field names; `none` is index 6, the byte at (HL) (R83). -/
def reg8OfField : Fin 8 → Option Reg8
  | 0 => some .b
  | 1 => some .c
  | 2 => some .d
  | 3 => some .e
  | 4 => some .h
  | 5 => some .l
  | 6 => none
  | 7 => some .a

/-- The pair an `r16` field names (R84). -/
def r16OfField : Fin 4 → R16
  | 0 => .bc
  | 1 => .de
  | 2 => .hl
  | 3 => .sp

/-- The pair an `r16` field of the stack group names (R84). -/
def r16sOfField : Fin 4 → R16S
  | 0 => .bc
  | 1 => .de
  | 2 => .hl
  | 3 => .af

/-- The condition a `cc` field names (R85). -/
def condOfField : Fin 4 → Cond
  | 0 => .nz
  | 1 => .z
  | 2 => .nc
  | 3 => .c

/-! ## The unprefixed page (R81, R86, R89, R91) -/

/-- `x = 0`: opcodes 0x00 to 0x3F. -/
def decodeX0 (y z : Fin 8) (n8 : Byte) (n16 : Word) : Instr :=
  match z with
  | 0 =>
    match y with
    | 0 => .nop
    | 1 => .ldN16Sp n16
    | 2 => .stop n8
    | 3 => .jrS8 n8
    | 4 | 5 | 6 | 7 => .jrCcS8 (condOfField (fieldC y)) n8
  | 1 =>
    match y with
    | 0 | 2 | 4 | 6 => .ldRrN16 (r16OfField (fieldP y)) n16
    | 1 | 3 | 5 | 7 => .addHlRr (r16OfField (fieldP y))
  | 2 =>
    match y with
    | 0 => .ldBcA
    | 1 => .ldABc
    | 2 => .ldDeA
    | 3 => .ldADe
    | 4 => .ldHlIncA
    | 5 => .ldAHlInc
    | 6 => .ldHlDecA
    | 7 => .ldAHlDec
  | 3 =>
    match y with
    | 0 | 2 | 4 | 6 => .incRr (r16OfField (fieldP y))
    | 1 | 3 | 5 | 7 => .decRr (r16OfField (fieldP y))
  | 4 =>
    match reg8OfField y with
    | some r => .incR r
    | none => .incHl
  | 5 =>
    match reg8OfField y with
    | some r => .decR r
    | none => .decHl
  | 6 =>
    match reg8OfField y with
    | some r => .ldRN8 r n8
    | none => .ldHlN8 n8
  | 7 =>
    match y with
    | 0 => .rlca
    | 1 => .rrca
    | 2 => .rla
    | 3 => .rra
    | 4 => .daa
    | 5 => .cpl
    | 6 => .scf
    | 7 => .ccf

/-- `x = 1`: opcodes 0x40 to 0x7F. -/
def decodeX1 (y z : Fin 8) : Instr :=
  match reg8OfField y, reg8OfField z with
  | some dst, some src => .ldRR dst src
  | some dst, none => .ldRHl dst
  | none, some r => .ldHlR r
  | none, none => .halt

/-- `x = 2`: opcodes 0x80 to 0xBF, the accumulator operations on a register or (HL) (R86). -/
def decodeX2 (y z : Fin 8) : Instr :=
  match y, reg8OfField z with
  | 0, some r => .addAR r
  | 0, none => .addAHl
  | 1, some r => .adcAR r
  | 1, none => .adcAHl
  | 2, some r => .subAR r
  | 2, none => .subAHl
  | 3, some r => .sbcAR r
  | 3, none => .sbcAHl
  | 4, some r => .andAR r
  | 4, none => .andAHl
  | 5, some r => .xorAR r
  | 5, none => .xorAHl
  | 6, some r => .orAR r
  | 6, none => .orAHl
  | 7, some r => .cpAR r
  | 7, none => .cpAHl

/-- `x = 3`: opcodes 0xC0 to 0xFF, the eleven illegal ones among them (R91). -/
def decodeX3 (op : Byte) (y z : Fin 8) (n8 : Byte) (n16 : Word) : Instr :=
  match z with
  | 0 =>
    match y with
    | 0 | 1 | 2 | 3 => .retCc (condOfField (fieldC y))
    | 4 => .ldhN8A n8
    | 5 => .addSpS8 n8
    | 6 => .ldhAN8 n8
    | 7 => .ldHlSpS8 n8
  | 1 =>
    match y with
    | 0 | 2 | 4 => .popRr (r16sOfField (fieldP y))
    | 6 => .popAf
    | 1 => .ret
    | 3 => .reti
    | 5 => .jpHl
    | 7 => .ldSpHl
  | 2 =>
    match y with
    | 0 | 1 | 2 | 3 => .jpCcN16 (condOfField (fieldC y)) n16
    | 4 => .ldhCA
    | 5 => .ldN16A n16
    | 6 => .ldhAC
    | 7 => .ldAN16 n16
  | 3 =>
    match y with
    | 0 => .jpN16 n16
    | 1 => .prefixCb n8
    | 2 | 3 | 4 | 5 => .illegal op
    | 6 => .di
    | 7 => .ei
  | 4 =>
    match y with
    | 0 | 1 | 2 | 3 => .callCcN16 (condOfField (fieldC y)) n16
    | 4 | 5 | 6 | 7 => .illegal op
  | 5 =>
    match y with
    | 0 | 2 | 4 => .pushRr (r16sOfField (fieldP y))
    | 6 => .pushAf
    | 1 => .callN16 n16
    | 3 | 5 | 7 => .illegal op
  | 6 =>
    match y with
    | 0 => .addAN8 n8
    | 1 => .adcAN8 n8
    | 2 => .subAN8 n8
    | 3 => .sbcAN8 n8
    | 4 => .andAN8 n8
    | 5 => .xorAN8 n8
    | 6 => .orAN8 n8
    | 7 => .cpAN8 n8
  | 7 => .rst y

/-- The instruction of the unprefixed page with the opcode byte `op`; `b1` and `b2` are the bytes after it, looked at
only where the format has them (R81, R82). 0xCB gives `prefixCb`. -/
def decodeBase (op b1 b2 : Byte) : Instr :=
  match fieldX op with
  | 0 => decodeX0 (fieldY op) (fieldZ op) b1 (word b2 b1)
  | 1 => decodeX1 (fieldY op) (fieldZ op)
  | 2 => decodeX2 (fieldY op) (fieldZ op)
  | 3 => decodeX3 op (fieldY op) (fieldZ op) b1 (word b2 b1)

/-- The instruction of the CB page with the second byte `op2` (R87, R90). -/
def decodeCb (op2 : Byte) : Instr :=
  match fieldX op2, fieldY op2, reg8OfField (fieldZ op2) with
  | 0, 0, some r => .rlcR r
  | 0, 0, none => .rlcHl
  | 0, 1, some r => .rrcR r
  | 0, 1, none => .rrcHl
  | 0, 2, some r => .rlR r
  | 0, 2, none => .rlHl
  | 0, 3, some r => .rrR r
  | 0, 3, none => .rrHl
  | 0, 4, some r => .slaR r
  | 0, 4, none => .slaHl
  | 0, 5, some r => .sraR r
  | 0, 5, none => .sraHl
  | 0, 6, some r => .swapR r
  | 0, 6, none => .swapHl
  | 0, 7, some r => .srlR r
  | 0, 7, none => .srlHl
  | 1, b, some r => .bitBR b r
  | 1, b, none => .bitBHl b
  | 2, b, some r => .resBR b r
  | 2, b, none => .resBHl b
  | 3, b, some r => .setBR b r
  | 3, b, none => .setBHl b

/-- The prefix is no instruction of its own: `CB op2` is the CB-page instruction `op2` (R255). Log 11. -/
def Instr.resolve : Instr → Instr
  | .prefixCb op2 => decodeCb op2
  | i => i

/-- The instruction the bytes `op b1 b2` begin with, the CB page resolved (R82). -/
def decodeBytes (op b1 b2 : Byte) : Instr := (decodeBase op b1 b2).resolve

/-- The length in bytes that the opcode byte decides (R80, R81). -/
def instrLength (op : Byte) : Nat :=
  match fieldX op, fieldZ op, fieldY op with
  | 0, 0, 1 => 3
  | 0, 0, 2 | 0, 0, 3 | 0, 0, 4 | 0, 0, 5 | 0, 0, 6 | 0, 0, 7 => 2
  | 0, 1, 0 | 0, 1, 2 | 0, 1, 4 | 0, 1, 6 => 3
  | 0, 6, _ => 2
  | 3, 0, 4 | 3, 0, 5 | 3, 0, 6 | 3, 0, 7 => 2
  | 3, 2, 0 | 3, 2, 1 | 3, 2, 2 | 3, 2, 3 | 3, 2, 5 | 3, 2, 7 => 3
  | 3, 3, 0 => 3
  | 3, 3, 1 => 2
  | 3, 4, 0 | 3, 4, 1 | 3, 4, 2 | 3, 4, 3 => 3
  | 3, 5, 1 => 3
  | 3, 6, _ => 2
  | _, _, _ => 1

/-- Why a list of bytes is no instruction. -/
inductive DecodeError where
  /-- The list is empty. -/
  | noByte
  /-- The list ends before the last byte of the instruction with the opcode `op`. -/
  | operandMissing (op : Byte)
  deriving DecidableEq, Repr

/-- The instruction at the front of a list of bytes, and the rest of the list (R80 to R82). -/
def decode : List Byte → Except DecodeError (Instr × List Byte)
  | [] => .error .noByte
  | op :: rest =>
    match instrLength op, rest with
    | 1, rest => .ok (decodeBytes op 0 0, rest)
    | 2, b1 :: rest => .ok (decodeBytes op b1 0, rest)
    | 3, b1 :: b2 :: rest => .ok (decodeBytes op b1 b2, rest)
    | _, _ => .error (.operandMissing op)

/-- The instruction of an opcode-table row whose bits are `w`, numbered as the table numbers them. A row of the
unprefixed page has the 8 bits of its opcode byte and is read on that page; a row of the CB page has 16 bits, the
prefix byte 0xCB in bits 15..8 and the CB-page opcode in bits 7..0. Any other width lays the bytes out from the least
significant. Bytes the row gives no bits are 0. Log 10. -/
def decodeTableWord (nbits w : Nat) : Option Instr :=
  let byte (k : Nat) : Byte := BitVec.ofNat 8 (w / 256 ^ k)
  match nbits with
  | 8 => some (decodeBase (byte 0) 0 0)
  | 16 =>
    if byte 1 = 0xCB then some (decodeBytes (byte 1) (byte 0) 0)
    else some (decodeBytes (byte 0) (byte 1) 0)
  | 24 => some (decodeBytes (byte 0) (byte 1) (byte 2))
  | _ => none

/-- The bytes of a table row's instruction in address order, as `decodeTableWord` reads them. Log 10. -/
def tableWordBytes (nbits w : Nat) : List Byte :=
  let byte (k : Nat) : Byte := BitVec.ofNat 8 (w / 256 ^ k)
  match nbits with
  | 8 => [byte 0, 0, 0]
  | 16 => if byte 1 = 0xCB then [byte 1, byte 0, 0] else [byte 0, byte 1, 0]
  | _ => [byte 0, byte 1, byte 2]

/-! ## The encoder (R81 to R90) -/

/-- The `r8` field of a register (R83). -/
def Reg8.field : Reg8 → Nat
  | .b => 0
  | .c => 1
  | .d => 2
  | .e => 3
  | .h => 4
  | .l => 5
  | .a => 7

/-- The `r16` field of a pair (R84). -/
def R16.field : R16 → Nat
  | .bc => 0
  | .de => 1
  | .hl => 2
  | .sp => 3

/-- The `r16` field of a pair of the stack group (R84). -/
def R16S.field : R16S → Nat
  | .bc => 0
  | .de => 1
  | .hl => 2
  | .af => 3

/-- The `cc` field of a condition (R85). -/
def Cond.field : Cond → Nat
  | .nz => 0
  | .z => 1
  | .nc => 2
  | .c => 3

/-- An opcode byte from its fixed bits and its fields' values, each at the weight of its lowest bit. -/
def opByte (bits : Nat) : Byte := BitVec.ofNat 8 bits

/-- The bytes of an instruction (R81, R89, R90; `opcode_table.json`). -/
def Instr.encode : Instr → List Byte
  | .nop => [0x00]
  | .ldRrN16 p n => [opByte (0x01 + p.field * 16), loByte n, hiByte n]
  | .ldBcA => [0x02]
  | .ldDeA => [0x12]
  | .ldHlIncA => [0x22]
  | .ldHlDecA => [0x32]
  | .incRr p => [opByte (0x03 + p.field * 16)]
  | .incR r => [opByte (0x04 + r.field * 8)]
  | .incHl => [0x34]
  | .decR r => [opByte (0x05 + r.field * 8)]
  | .decHl => [0x35]
  | .ldRN8 r n => [opByte (0x06 + r.field * 8), n]
  | .ldHlN8 n => [0x36, n]
  | .rlca => [0x07]
  | .rrca => [0x0F]
  | .rla => [0x17]
  | .rra => [0x1F]
  | .ldN16Sp n => [0x08, loByte n, hiByte n]
  | .addHlRr p => [opByte (0x09 + p.field * 16)]
  | .ldABc => [0x0A]
  | .ldADe => [0x1A]
  | .ldAHlInc => [0x2A]
  | .ldAHlDec => [0x3A]
  | .decRr p => [opByte (0x0B + p.field * 16)]
  | .stop pad => [0x10, pad]
  | .jrS8 e => [0x18, e]
  | .jrCcS8 cc e => [opByte (0x20 + cc.field * 8), e]
  | .daa => [0x27]
  | .cpl => [0x2F]
  | .scf => [0x37]
  | .ccf => [0x3F]
  | .ldRR dst src => [opByte (0x40 + dst.field * 8 + src.field)]
  | .ldRHl dst => [opByte (0x46 + dst.field * 8)]
  | .ldHlR r => [opByte (0x70 + r.field)]
  | .halt => [0x76]
  | .addAR r => [opByte (0x80 + r.field)]
  | .addAHl => [0x86]
  | .addAN8 n => [0xC6, n]
  | .adcAR r => [opByte (0x88 + r.field)]
  | .adcAHl => [0x8E]
  | .adcAN8 n => [0xCE, n]
  | .subAR r => [opByte (0x90 + r.field)]
  | .subAHl => [0x96]
  | .subAN8 n => [0xD6, n]
  | .sbcAR r => [opByte (0x98 + r.field)]
  | .sbcAHl => [0x9E]
  | .sbcAN8 n => [0xDE, n]
  | .andAR r => [opByte (0xA0 + r.field)]
  | .andAHl => [0xA6]
  | .andAN8 n => [0xE6, n]
  | .xorAR r => [opByte (0xA8 + r.field)]
  | .xorAHl => [0xAE]
  | .xorAN8 n => [0xEE, n]
  | .orAR r => [opByte (0xB0 + r.field)]
  | .orAHl => [0xB6]
  | .orAN8 n => [0xF6, n]
  | .cpAR r => [opByte (0xB8 + r.field)]
  | .cpAHl => [0xBE]
  | .cpAN8 n => [0xFE, n]
  | .retCc cc => [opByte (0xC0 + cc.field * 8)]
  | .popRr p => [opByte (0xC1 + p.field * 16)]
  | .popAf => [0xF1]
  | .jpCcN16 cc n => [opByte (0xC2 + cc.field * 8), loByte n, hiByte n]
  | .jpN16 n => [0xC3, loByte n, hiByte n]
  | .callCcN16 cc n => [opByte (0xC4 + cc.field * 8), loByte n, hiByte n]
  | .pushRr p => [opByte (0xC5 + p.field * 16)]
  | .pushAf => [0xF5]
  | .rst t => [opByte (0xC7 + t.val * 8)]
  | .ret => [0xC9]
  | .prefixCb op2 => [0xCB, op2]
  | .callN16 n => [0xCD, loByte n, hiByte n]
  | .reti => [0xD9]
  | .ldhN8A n => [0xE0, n]
  | .ldhCA => [0xE2]
  | .ldhAN8 n => [0xF0, n]
  | .ldhAC => [0xF2]
  | .addSpS8 e => [0xE8, e]
  | .jpHl => [0xE9]
  | .ldN16A n => [0xEA, loByte n, hiByte n]
  | .ldAN16 n => [0xFA, loByte n, hiByte n]
  | .di => [0xF3]
  | .ei => [0xFB]
  | .ldHlSpS8 e => [0xF8, e]
  | .ldSpHl => [0xF9]
  | .illegal op => [op]
  | .rlcR r => [0xCB, opByte (0x00 + r.field)]
  | .rlcHl => [0xCB, 0x06]
  | .rrcR r => [0xCB, opByte (0x08 + r.field)]
  | .rrcHl => [0xCB, 0x0E]
  | .rlR r => [0xCB, opByte (0x10 + r.field)]
  | .rlHl => [0xCB, 0x16]
  | .rrR r => [0xCB, opByte (0x18 + r.field)]
  | .rrHl => [0xCB, 0x1E]
  | .slaR r => [0xCB, opByte (0x20 + r.field)]
  | .slaHl => [0xCB, 0x26]
  | .sraR r => [0xCB, opByte (0x28 + r.field)]
  | .sraHl => [0xCB, 0x2E]
  | .swapR r => [0xCB, opByte (0x30 + r.field)]
  | .swapHl => [0xCB, 0x36]
  | .srlR r => [0xCB, opByte (0x38 + r.field)]
  | .srlHl => [0xCB, 0x3E]
  | .bitBR b r => [0xCB, opByte (0x40 + b.val * 8 + r.field)]
  | .bitBHl b => [0xCB, opByte (0x46 + b.val * 8)]
  | .resBR b r => [0xCB, opByte (0x80 + b.val * 8 + r.field)]
  | .resBHl b => [0xCB, opByte (0x86 + b.val * 8)]
  | .setBR b r => [0xCB, opByte (0xC0 + b.val * 8 + r.field)]
  | .setBHl b => [0xCB, opByte (0xC6 + b.val * 8)]

/-! ## The rows of `opcode_table.json` (R89 to R91, R420) -/

/-- One row: the table's mnemonic, its page, `match` and `mask` over the byte that selects within the page (byte 0 of
the unprefixed page, byte 1 of the CB page), the `except` list over the same byte, the length in bytes, and the
T-cycles taken and not taken. The row `PREFIX CB` shows the 4 that the prefix adds. -/
structure OpcodeRow where
  mnemonic : String
  cbPage : Bool
  pattern : Byte
  mask : Byte
  excepted : List Byte
  length : Nat
  cycles : Nat
  cyclesNotTaken : Nat
  deriving DecidableEq, Repr

/-- The row selects the byte (R90 "How to read a row"). -/
def OpcodeRow.selects (row : OpcodeRow) (op : Byte) : Bool :=
  op &&& row.mask == row.pattern && !row.excepted.contains op

/-- Rows 1 to 24 of `opcode_table.json`. -/
def opcodeRows1 : List OpcodeRow :=
  [⟨"NOP", false, 0x00, 0xFF, [], 1, 4, 4⟩,
   ⟨"LD_rr_n16", false, 0x01, 0xCF, [], 3, 12, 12⟩,
   ⟨"LD__BC__A", false, 0x02, 0xFF, [], 1, 8, 8⟩,
   ⟨"LD__DE__A", false, 0x12, 0xFF, [], 1, 8, 8⟩,
   ⟨"LD__HL+__A", false, 0x22, 0xFF, [], 1, 8, 8⟩,
   ⟨"LD__HL-__A", false, 0x32, 0xFF, [], 1, 8, 8⟩,
   ⟨"INC_rr", false, 0x03, 0xCF, [], 1, 8, 8⟩,
   ⟨"INC_r", false, 0x04, 0xC7, [0x34], 1, 4, 4⟩,
   ⟨"INC__HL", false, 0x34, 0xFF, [], 1, 12, 12⟩,
   ⟨"DEC_r", false, 0x05, 0xC7, [0x35], 1, 4, 4⟩,
   ⟨"DEC__HL", false, 0x35, 0xFF, [], 1, 12, 12⟩,
   ⟨"LD_r_n8", false, 0x06, 0xC7, [0x36], 2, 8, 8⟩,
   ⟨"LD__HL__n8", false, 0x36, 0xFF, [], 2, 12, 12⟩,
   ⟨"RLCA", false, 0x07, 0xFF, [], 1, 4, 4⟩,
   ⟨"RRCA", false, 0x0F, 0xFF, [], 1, 4, 4⟩,
   ⟨"RLA", false, 0x17, 0xFF, [], 1, 4, 4⟩,
   ⟨"RRA", false, 0x1F, 0xFF, [], 1, 4, 4⟩,
   ⟨"LD__n16__SP", false, 0x08, 0xFF, [], 3, 20, 20⟩,
   ⟨"ADD_HL_rr", false, 0x09, 0xCF, [], 1, 8, 8⟩,
   ⟨"LD_A__BC", false, 0x0A, 0xFF, [], 1, 8, 8⟩,
   ⟨"LD_A__DE", false, 0x1A, 0xFF, [], 1, 8, 8⟩,
   ⟨"LD_A__HL+", false, 0x2A, 0xFF, [], 1, 8, 8⟩,
   ⟨"LD_A__HL-", false, 0x3A, 0xFF, [], 1, 8, 8⟩,
   ⟨"DEC_rr", false, 0x0B, 0xCF, [], 1, 8, 8⟩]

/-- Rows 25 to 48 of `opcode_table.json`. -/
def opcodeRows2 : List OpcodeRow :=
  [⟨"STOP", false, 0x10, 0xFF, [], 2, 4, 4⟩,
   ⟨"JR_s8", false, 0x18, 0xFF, [], 2, 12, 12⟩,
   ⟨"JR_cc_s8", false, 0x20, 0xE7, [], 2, 12, 8⟩,
   ⟨"DAA", false, 0x27, 0xFF, [], 1, 4, 4⟩,
   ⟨"CPL", false, 0x2F, 0xFF, [], 1, 4, 4⟩,
   ⟨"SCF", false, 0x37, 0xFF, [], 1, 4, 4⟩,
   ⟨"CCF", false, 0x3F, 0xFF, [], 1, 4, 4⟩,
   ⟨"LD_r_r", false, 0x40, 0xC0, [0x46, 0x4E, 0x56, 0x5E, 0x66, 0x6E, 0x70, 0x71, 0x72, 0x73, 0x74, 0x75, 0x76, 0x77, 0x7E], 1, 4, 4⟩,
   ⟨"LD_r__HL", false, 0x46, 0xC7, [0x76], 1, 8, 8⟩,
   ⟨"LD__HL__r", false, 0x70, 0xF8, [0x76], 1, 8, 8⟩,
   ⟨"HALT", false, 0x76, 0xFF, [], 1, 4, 4⟩,
   ⟨"ADD_A_r", false, 0x80, 0xF8, [0x86], 1, 4, 4⟩,
   ⟨"ADD_A__HL", false, 0x86, 0xFF, [], 1, 8, 8⟩,
   ⟨"ADD_A_n8", false, 0xC6, 0xFF, [], 2, 8, 8⟩,
   ⟨"ADC_A_r", false, 0x88, 0xF8, [0x8E], 1, 4, 4⟩,
   ⟨"ADC_A__HL", false, 0x8E, 0xFF, [], 1, 8, 8⟩,
   ⟨"ADC_A_n8", false, 0xCE, 0xFF, [], 2, 8, 8⟩,
   ⟨"SUB_A_r", false, 0x90, 0xF8, [0x96], 1, 4, 4⟩,
   ⟨"SUB_A__HL", false, 0x96, 0xFF, [], 1, 8, 8⟩,
   ⟨"SUB_A_n8", false, 0xD6, 0xFF, [], 2, 8, 8⟩,
   ⟨"SBC_A_r", false, 0x98, 0xF8, [0x9E], 1, 4, 4⟩,
   ⟨"SBC_A__HL", false, 0x9E, 0xFF, [], 1, 8, 8⟩,
   ⟨"SBC_A_n8", false, 0xDE, 0xFF, [], 2, 8, 8⟩,
   ⟨"AND_A_r", false, 0xA0, 0xF8, [0xA6], 1, 4, 4⟩]

/-- Rows 49 to 72 of `opcode_table.json`. -/
def opcodeRows3 : List OpcodeRow :=
  [⟨"AND_A__HL", false, 0xA6, 0xFF, [], 1, 8, 8⟩,
   ⟨"AND_A_n8", false, 0xE6, 0xFF, [], 2, 8, 8⟩,
   ⟨"XOR_A_r", false, 0xA8, 0xF8, [0xAE], 1, 4, 4⟩,
   ⟨"XOR_A__HL", false, 0xAE, 0xFF, [], 1, 8, 8⟩,
   ⟨"XOR_A_n8", false, 0xEE, 0xFF, [], 2, 8, 8⟩,
   ⟨"OR_A_r", false, 0xB0, 0xF8, [0xB6], 1, 4, 4⟩,
   ⟨"OR_A__HL", false, 0xB6, 0xFF, [], 1, 8, 8⟩,
   ⟨"OR_A_n8", false, 0xF6, 0xFF, [], 2, 8, 8⟩,
   ⟨"CP_A_r", false, 0xB8, 0xF8, [0xBE], 1, 4, 4⟩,
   ⟨"CP_A__HL", false, 0xBE, 0xFF, [], 1, 8, 8⟩,
   ⟨"CP_A_n8", false, 0xFE, 0xFF, [], 2, 8, 8⟩,
   ⟨"RET_cc", false, 0xC0, 0xE7, [], 1, 20, 8⟩,
   ⟨"POP_rr", false, 0xC1, 0xCF, [0xF1], 1, 12, 12⟩,
   ⟨"POP_AF", false, 0xF1, 0xFF, [], 1, 12, 12⟩,
   ⟨"JP_cc_n16", false, 0xC2, 0xE7, [], 3, 16, 12⟩,
   ⟨"JP_n16", false, 0xC3, 0xFF, [], 3, 16, 16⟩,
   ⟨"CALL_cc_n16", false, 0xC4, 0xE7, [], 3, 24, 12⟩,
   ⟨"PUSH_rr", false, 0xC5, 0xCF, [0xF5], 1, 16, 16⟩,
   ⟨"PUSH_AF", false, 0xF5, 0xFF, [], 1, 16, 16⟩,
   ⟨"RST_t", false, 0xC7, 0xC7, [], 1, 16, 16⟩,
   ⟨"RET", false, 0xC9, 0xFF, [], 1, 16, 16⟩,
   ⟨"PREFIX_CB", false, 0xCB, 0xFF, [], 2, 4, 4⟩,
   ⟨"CALL_n16", false, 0xCD, 0xFF, [], 3, 24, 24⟩,
   ⟨"RETI", false, 0xD9, 0xFF, [], 1, 16, 16⟩]

/-- Rows 73 to 96 of `opcode_table.json`. -/
def opcodeRows4 : List OpcodeRow :=
  [⟨"LDH__n8__A", false, 0xE0, 0xFF, [], 2, 12, 12⟩,
   ⟨"LDH__C__A", false, 0xE2, 0xFF, [], 1, 8, 8⟩,
   ⟨"LDH_A__n8", false, 0xF0, 0xFF, [], 2, 12, 12⟩,
   ⟨"LDH_A__C", false, 0xF2, 0xFF, [], 1, 8, 8⟩,
   ⟨"ADD_SP_s8", false, 0xE8, 0xFF, [], 2, 16, 16⟩,
   ⟨"JP_HL", false, 0xE9, 0xFF, [], 1, 4, 4⟩,
   ⟨"LD__n16__A", false, 0xEA, 0xFF, [], 3, 16, 16⟩,
   ⟨"LD_A__n16", false, 0xFA, 0xFF, [], 3, 16, 16⟩,
   ⟨"DI", false, 0xF3, 0xFF, [], 1, 4, 4⟩,
   ⟨"EI", false, 0xFB, 0xFF, [], 1, 4, 4⟩,
   ⟨"LD_HL_SP+s8", false, 0xF8, 0xFF, [], 2, 12, 12⟩,
   ⟨"LD_SP_HL", false, 0xF9, 0xFF, [], 1, 8, 8⟩,
   ⟨"ILLEGAL__NOP", false, 0xD3, 0xFF, [], 1, 4, 4⟩,
   ⟨"ILLEGAL__NOP", false, 0xDB, 0xFF, [], 1, 4, 4⟩,
   ⟨"ILLEGAL__NOP", false, 0xDD, 0xFF, [], 1, 4, 4⟩,
   ⟨"ILLEGAL__NOP", false, 0xE3, 0xFF, [], 1, 4, 4⟩,
   ⟨"ILLEGAL__NOP", false, 0xE4, 0xFF, [], 1, 4, 4⟩,
   ⟨"ILLEGAL__NOP", false, 0xEB, 0xFF, [], 1, 4, 4⟩,
   ⟨"ILLEGAL__NOP", false, 0xEC, 0xFF, [], 1, 4, 4⟩,
   ⟨"ILLEGAL__NOP", false, 0xED, 0xFF, [], 1, 4, 4⟩,
   ⟨"ILLEGAL__NOP", false, 0xF4, 0xFF, [], 1, 4, 4⟩,
   ⟨"ILLEGAL__NOP", false, 0xFC, 0xFF, [], 1, 4, 4⟩,
   ⟨"ILLEGAL__NOP", false, 0xFD, 0xFF, [], 1, 4, 4⟩,
   ⟨"RLC_r", true, 0x00, 0xF8, [0x06], 2, 8, 8⟩]

/-- Rows 97 to 117 of `opcode_table.json`. -/
def opcodeRows5 : List OpcodeRow :=
  [⟨"RLC__HL", true, 0x06, 0xFF, [], 2, 16, 16⟩,
   ⟨"RRC_r", true, 0x08, 0xF8, [0x0E], 2, 8, 8⟩,
   ⟨"RRC__HL", true, 0x0E, 0xFF, [], 2, 16, 16⟩,
   ⟨"RL_r", true, 0x10, 0xF8, [0x16], 2, 8, 8⟩,
   ⟨"RL__HL", true, 0x16, 0xFF, [], 2, 16, 16⟩,
   ⟨"RR_r", true, 0x18, 0xF8, [0x1E], 2, 8, 8⟩,
   ⟨"RR__HL", true, 0x1E, 0xFF, [], 2, 16, 16⟩,
   ⟨"SLA_r", true, 0x20, 0xF8, [0x26], 2, 8, 8⟩,
   ⟨"SLA__HL", true, 0x26, 0xFF, [], 2, 16, 16⟩,
   ⟨"SRA_r", true, 0x28, 0xF8, [0x2E], 2, 8, 8⟩,
   ⟨"SRA__HL", true, 0x2E, 0xFF, [], 2, 16, 16⟩,
   ⟨"SWAP_r", true, 0x30, 0xF8, [0x36], 2, 8, 8⟩,
   ⟨"SWAP__HL", true, 0x36, 0xFF, [], 2, 16, 16⟩,
   ⟨"SRL_r", true, 0x38, 0xF8, [0x3E], 2, 8, 8⟩,
   ⟨"SRL__HL", true, 0x3E, 0xFF, [], 2, 16, 16⟩,
   ⟨"BIT_b_r", true, 0x40, 0xC0, [0x46, 0x4E, 0x56, 0x5E, 0x66, 0x6E, 0x76, 0x7E], 2, 8, 8⟩,
   ⟨"BIT_b__HL", true, 0x46, 0xC7, [], 2, 12, 12⟩,
   ⟨"RES_b_r", true, 0x80, 0xC0, [0x86, 0x8E, 0x96, 0x9E, 0xA6, 0xAE, 0xB6, 0xBE], 2, 8, 8⟩,
   ⟨"RES_b__HL", true, 0x86, 0xC7, [], 2, 16, 16⟩,
   ⟨"SET_b_r", true, 0xC0, 0xC0, [0xC6, 0xCE, 0xD6, 0xDE, 0xE6, 0xEE, 0xF6, 0xFE], 2, 8, 8⟩,
   ⟨"SET_b__HL", true, 0xC6, 0xC7, [], 2, 16, 16⟩]

/-- All 117 rows. -/
def opcodeRows : List OpcodeRow :=
  opcodeRows1 ++ opcodeRows2 ++ opcodeRows3 ++ opcodeRows4 ++ opcodeRows5

/-- The mnemonic of an instruction, as the table spells it. -/
def Instr.mnemonic : Instr → String
  | .nop => "NOP"
  | .ldRrN16 _ _ => "LD_rr_n16"
  | .ldBcA => "LD__BC__A"
  | .ldDeA => "LD__DE__A"
  | .ldHlIncA => "LD__HL+__A"
  | .ldHlDecA => "LD__HL-__A"
  | .incRr _ => "INC_rr"
  | .incR _ => "INC_r"
  | .incHl => "INC__HL"
  | .decR _ => "DEC_r"
  | .decHl => "DEC__HL"
  | .ldRN8 _ _ => "LD_r_n8"
  | .ldHlN8 _ => "LD__HL__n8"
  | .rlca => "RLCA"
  | .rrca => "RRCA"
  | .rla => "RLA"
  | .rra => "RRA"
  | .ldN16Sp _ => "LD__n16__SP"
  | .addHlRr _ => "ADD_HL_rr"
  | .ldABc => "LD_A__BC"
  | .ldADe => "LD_A__DE"
  | .ldAHlInc => "LD_A__HL+"
  | .ldAHlDec => "LD_A__HL-"
  | .decRr _ => "DEC_rr"
  | .stop _ => "STOP"
  | .jrS8 _ => "JR_s8"
  | .jrCcS8 _ _ => "JR_cc_s8"
  | .daa => "DAA"
  | .cpl => "CPL"
  | .scf => "SCF"
  | .ccf => "CCF"
  | .ldRR _ _ => "LD_r_r"
  | .ldRHl _ => "LD_r__HL"
  | .ldHlR _ => "LD__HL__r"
  | .halt => "HALT"
  | .addAR _ => "ADD_A_r"
  | .addAHl => "ADD_A__HL"
  | .addAN8 _ => "ADD_A_n8"
  | .adcAR _ => "ADC_A_r"
  | .adcAHl => "ADC_A__HL"
  | .adcAN8 _ => "ADC_A_n8"
  | .subAR _ => "SUB_A_r"
  | .subAHl => "SUB_A__HL"
  | .subAN8 _ => "SUB_A_n8"
  | .sbcAR _ => "SBC_A_r"
  | .sbcAHl => "SBC_A__HL"
  | .sbcAN8 _ => "SBC_A_n8"
  | .andAR _ => "AND_A_r"
  | .andAHl => "AND_A__HL"
  | .andAN8 _ => "AND_A_n8"
  | .xorAR _ => "XOR_A_r"
  | .xorAHl => "XOR_A__HL"
  | .xorAN8 _ => "XOR_A_n8"
  | .orAR _ => "OR_A_r"
  | .orAHl => "OR_A__HL"
  | .orAN8 _ => "OR_A_n8"
  | .cpAR _ => "CP_A_r"
  | .cpAHl => "CP_A__HL"
  | .cpAN8 _ => "CP_A_n8"
  | .retCc _ => "RET_cc"
  | .popRr _ => "POP_rr"
  | .popAf => "POP_AF"
  | .jpCcN16 _ _ => "JP_cc_n16"
  | .jpN16 _ => "JP_n16"
  | .callCcN16 _ _ => "CALL_cc_n16"
  | .pushRr _ => "PUSH_rr"
  | .pushAf => "PUSH_AF"
  | .rst _ => "RST_t"
  | .ret => "RET"
  | .prefixCb _ => "PREFIX_CB"
  | .callN16 _ => "CALL_n16"
  | .reti => "RETI"
  | .ldhN8A _ => "LDH__n8__A"
  | .ldhCA => "LDH__C__A"
  | .ldhAN8 _ => "LDH_A__n8"
  | .ldhAC => "LDH_A__C"
  | .addSpS8 _ => "ADD_SP_s8"
  | .jpHl => "JP_HL"
  | .ldN16A _ => "LD__n16__A"
  | .ldAN16 _ => "LD_A__n16"
  | .di => "DI"
  | .ei => "EI"
  | .ldHlSpS8 _ => "LD_HL_SP+s8"
  | .ldSpHl => "LD_SP_HL"
  | .illegal _ => "ILLEGAL__NOP"
  | .rlcR _ => "RLC_r"
  | .rlcHl => "RLC__HL"
  | .rrcR _ => "RRC_r"
  | .rrcHl => "RRC__HL"
  | .rlR _ => "RL_r"
  | .rlHl => "RL__HL"
  | .rrR _ => "RR_r"
  | .rrHl => "RR__HL"
  | .slaR _ => "SLA_r"
  | .slaHl => "SLA__HL"
  | .sraR _ => "SRA_r"
  | .sraHl => "SRA__HL"
  | .swapR _ => "SWAP_r"
  | .swapHl => "SWAP__HL"
  | .srlR _ => "SRL_r"
  | .srlHl => "SRL__HL"
  | .bitBR _ _ => "BIT_b_r"
  | .bitBHl _ => "BIT_b__HL"
  | .resBR _ _ => "RES_b_r"
  | .resBHl _ => "RES_b__HL"
  | .setBR _ _ => "SET_b_r"
  | .setBHl _ => "SET_b__HL"

end Sys2Proof
end

