-- ==== Sys2Proof/Machine/State.lean ====
section
/-! DEFINITION. Everything the spec gives the machine, as plain data (10_state R10 to R38), the reasons a step can stop,
and the state after reset (R37, R400). The model's own fields are marked so; INVENTORY.md lists them all. -/

namespace Sys2Proof.Machine

/-- The four modes of the PPU's sequencer (R23, R361). -/
inductive PpuMode where
  | hblank | vblank | oamScan | drawing
  deriving DecidableEq, Repr

/-- A sprite record of the OAM scan: four bytes of OAM and their index (R23, R364). -/
structure Sprite where
  y : Byte
  x : Byte
  tile : Byte
  attrs : Byte
  index : Nat
  deriving DecidableEq, Repr

/-- The eight buttons; true means pressed (R26). -/
structure Buttons where
  a : Bool
  b : Bool
  select : Bool
  start : Bool
  up : Bool
  down : Bool
  left : Bool
  right : Bool
  deriving DecidableEq, Repr

/-- One `pixel_out` event (R368). -/
structure Pixel where
  x : Nat
  y : Nat
  shade : BitVec 2
  deriving DecidableEq, Repr

/-- What the host does at one frame boundary: the buttons it leaves pressed, and whether it clears `running` (R2,
R301). -/
structure HostInput where
  buttons : Buttons
  stop : Bool
  deriving DecidableEq, Repr

/-- Storage: the listed bytes by rising storage address; `Memory.wf` in Machine/Ops.lean is its canonical form (log 4).
`Raw[a]` of R44 is the byte at `phys a`. -/
abbrev Memory := List Host.Cell

/-- The state of the machine at an instruction boundary. -/
structure State where
  /-- The model's own: the arguments a step reads (00_scope section 5, log 1). -/
  cfg : Config
  a : Byte
  /-- Z N H C in bits 7..4, bits 3..0 always 0 (R12, R13). -/
  f : Byte
  b : Byte
  c : Byte
  d : Byte
  e : Byte
  h : Byte
  l : Byte
  sp : Word
  pc : Word
  /-- Interrupts master-enable (R16). -/
  ime : Bool
  /-- R17. -/
  halted : Bool
  /-- The next fetch does not advance PC (R18). -/
  haltBug : Bool
  /-- R19. -/
  running : Bool
  /-- `ime_delay`, 0..2 (R20). -/
  imeDelay : Nat
  /-- `Raw` (R21, R44). -/
  mem : Memory
  /-- R22. -/
  bootRomEnabled : Bool
  /-- `M` (R23). -/
  ppuMode : PpuMode
  /-- R23. -/
  ppuCounter : Nat
  /-- 0..153 (R23). -/
  ly : Nat
  /-- R23, R364. -/
  sprites : List Sprite
  /-- R24. -/
  divAcc : Nat
  /-- R24. -/
  timaAcc : Nat
  /-- R25. -/
  dmaRunning : Bool
  /-- 0..640 (R25). -/
  dmaCounter : Nat
  /-- R26. -/
  buttons : Buttons
  /-- R27. -/
  frameCycles : Nat
  /-- The model's own: the `c` of R300, of the running step or of the last one (log 6). -/
  cycles : Nat
  /-- The model's own: the `pixel_out` events of the last step, in order (R300, R368, log 7). -/
  pixelOut : List Pixel
  /-- The model's own: the serial bytes of the last step, in order (R300, R303, log 7). -/
  serialOut : List Byte
  /-- The model's own: what the host does at the frame boundaries to come (R2, R301, log 8). -/
  hostInputs : List HostInput
  deriving DecidableEq, Repr

/-- Why a step stops. The machine itself raises nothing (R330). -/
inductive Fault where
  /-- Raised by `step` when `running` is 0: a final state, in which the machine takes no step (R19, R301, R332). Safe:
  the machine does nothing there either. -/
  | notRunning
  deriving DecidableEq, Repr

/-- Why an instruction is refused. -/
inductive Refusal where
  /-- Raised by an arm of `exec` whose instruction has no meaning in the model yet. Safe: nothing is claimed of it. -/
  | notModelled (mnemonic : String)
  deriving DecidableEq, Repr

/-- Every button released (R37). -/
def Buttons.released : Buttons :=
  { a := false, b := false, select := false, start := false, up := false, down := false, left := false, right := false }

/-- The machine right after reset: no boot ROM, an empty cartridge image, the default registers of a start without a
boot ROM (R37, R400; log 2, log 3). `powerOn` in Machine/Reset.lean is the reset procedure for any arguments. -/
def State.reset : State :=
  { cfg := Config.standard
    a := ResetRegs.withoutBootRom.a
    f := ResetRegs.withoutBootRom.f
    b := ResetRegs.withoutBootRom.b
    c := ResetRegs.withoutBootRom.c
    d := ResetRegs.withoutBootRom.d
    e := ResetRegs.withoutBootRom.e
    h := ResetRegs.withoutBootRom.h
    l := ResetRegs.withoutBootRom.l
    sp := ResetRegs.withoutBootRom.sp
    pc := 0x0100
    ime := false
    halted := false
    haltBug := false
    running := true
    imeDelay := 0
    mem := []
    bootRomEnabled := false
    ppuMode := .oamScan
    ppuCounter := 0
    ly := 0
    sprites := []
    divAcc := 0
    timaAcc := 0
    dmaRunning := false
    dmaCounter := 0
    buttons := Buttons.released
    frameCycles := 0
    cycles := 0
    pixelOut := []
    serialOut := []
    hostInputs := [] }

end Sys2Proof.Machine
end

