-- ==== Sys2Proof/Machine/Ops.lean ====
section
/-! DEFINITION. The named operations of the machine: storage, the CPU's bus, the stack, fetching a byte, requesting and
entering an interrupt and returning from one (20_memory R40 to R73; 41 R135, R136; 60 R311 to R316, R350). -/

namespace Sys2Proof.Machine

/-! ## Storage (R21, R42, R44) -/

/-- What a storage address that is not listed reads as: its reset contents, 0x00 everywhere but STAT (R37, D4, D5;
log 4). -/
def unlisted (a : Nat) : Byte := if a = 0xFF41 then 0x06 else 0x00

/-- The byte at a storage address. -/
def Memory.read : Memory → Nat → Byte
  | [], a => unlisted a
  | (k, v) :: m, a => if k = a then v else Memory.read m a

/-- The list without its entry for a storage address. -/
def Memory.erase (m : Memory) (a : Nat) : Memory := m.filter (fun x => x.1 != a)

/-- A new entry, put before the first one with a higher address. -/
def Memory.insert : Memory → Nat → Byte → Memory
  | [], a, v => [(a, v)]
  | (k, w) :: m, a, v => if a < k then (a, v) :: (k, w) :: m else (k, w) :: Memory.insert m a v

/-- Stores a byte at a storage address and keeps the canonical form: the value an unlisted address reads as removes the
entry. -/
def Memory.write (m : Memory) (a : Nat) (v : Byte) : Memory :=
  if v = unlisted a then m.erase a else (m.erase a).insert a v

/-- A storage address: one of the 65 536 that is no echo (R21, R42). -/
def isStorage (a : Nat) : Bool := a < 0x10000 && !(0xE000 ≤ a && a ≤ 0xFDFF)

/-- The canonical form: addresses strictly rising, each a storage address, no entry equal to what an unlisted address
reads as (log 4). -/
abbrev Memory.wf (m : Memory) : Prop :=
  m.Pairwise (fun x y => x.1 < y.1) ∧ ∀ x ∈ m, isStorage x.1 = true ∧ x.2 ≠ unlisted x.1

/-- `phys`: the echo 0xE000 to 0xFDFF is the byte 0x2000 lower (R42). -/
def phys (a : Word) : Nat := if 0xE000 ≤ a.toNat ∧ a.toNat ≤ 0xFDFF then a.toNat - 0x2000 else a.toNat

/-- `Raw[a]` (R44). -/
def raw (s : State) (a : Word) : Byte := s.mem.read (phys a)

/-- `Raw[a] <- v` (R44). -/
def rawWrite (s : State) (a : Word) (v : Byte) : State := { s with mem := s.mem.write (phys a) v }

/-! ## The gates of the bus (R46 to R50, R53) -/

/-- High RAM, 0xFF80 to 0xFFFE (R41). -/
def inHram (a : Word) : Bool := 0xFF80 ≤ a.toNat && a.toNat ≤ 0xFFFE

/-- Video RAM, 0x8000 to 0x9FFF (R41). -/
def inVram (a : Word) : Bool := 0x8000 ≤ a.toNat && a.toNat ≤ 0x9FFF

/-- OAM, 0xFE00 to 0xFE9F (R41). -/
def inOam (a : Word) : Bool := 0xFE00 ≤ a.toNat && a.toNat ≤ 0xFE9F

/-- LCDC bit 7 (R33). -/
def lcdOn (s : State) : Bool := (raw s 0xFF40).getLsbD 7

/-- The CPU's access to the address is gated by the PPU mode (R48, R49, R53). -/
def gated (s : State) (a : Word) : Bool :=
  lcdOn s && (s.ppuMode == .drawing && inVram a || (s.ppuMode == .oamScan || s.ppuMode == .drawing) && inOam a)

/-- The boot ROM byte that shadows the address, where the shadow is on and covers it (R50; log 20). -/
def bootByte (s : State) (a : Word) : Option Byte :=
  match s.cfg.bootRom with
  | some rom => if h : s.bootRomEnabled = true ∧ a.toNat < 0x100 then some (rom[a.toNat]'(by omega)) else none
  | none => none

/-- The low nibble lines of one button group: a selected and pressed button reads 0 (R51). -/
def joypLines (selected : Bool) (b0 b1 b2 b3 : Bool) : Byte :=
  if selected then
    (if b0 then 0 else 1) ||| (if b1 then 0 else 2) ||| (if b2 then 0 else 4) ||| (if b3 then 0 else 8)
  else 0x0F

/-- `joyp_read` (R29, R51, D25, D40): bit 4 of JOYP selects the directions, bit 5 the actions, both active low. -/
def joypRead (s : State) : Byte :=
  let sel := raw s 0xFF00
  let k := s.buttons
  (sel &&& 0xF0) |||
    (joypLines (!sel.getLsbD 4) k.right k.left k.up k.down &&& joypLines (!sel.getLsbD 5) k.a k.b k.select k.start)

/-! ## The CPU's reads (R45) -/

/-- `MemRead(addr, 1)`: the first check that applies decides (R45). A read changes no state. -/
def busRead (s : State) (a : Word) : Byte :=
  if s.dmaRunning && !inHram a then 0xFF
  else if s.cfg.testLogMode && a == 0xFF44 then 0x90
  else if gated s a then 0xFF
  else
    match bootByte s a with
    | some v => v
    | none => if a = 0xFF00 then joypRead s else raw s a

/-! ## The CPU's writes (R52 to R58, R350) -/

/-- The first `n` bytes of the DMA copy from page `page` into OAM, the source bytes as they stand in `old` (R350). -/
def dmaCopy (old : Memory) (page : Byte) : Nat → Memory → Memory
  | 0, m => m
  | n + 1, m =>
    (dmaCopy old page n m).write (0xFE00 + n) (old.read (phys (word page 0 + BitVec.ofNat 16 n)))

/-- `dma_start(v)`: 160 bytes of page `v` into OAM through raw storage, the lockout on, its counter 0 (R56, R350). -/
def dmaStart (s : State) (v : Byte) : State :=
  { s with mem := dmaCopy s.mem v 160 s.mem, dmaRunning := true, dmaCounter := 0 }

/-- Reset of DIV: the register and both accumulators (R57, R252). -/
def resetDiv (s : State) : State := { rawWrite s 0xFF04 0 with divAcc := 0, timaAcc := 0 }

/-- STAT with its coincidence bit set or cleared (R34, R363). -/
def withCoincidence (stat : Byte) (equal : Bool) : Byte := if equal then stat ||| 0x04 else stat &&& 0xFB

/-- `MemWrite(addr, 1, v)`: the first case that applies decides (R52). -/
def busWrite (s : State) (a : Word) (v : Byte) : State :=
  if gated s a then s
  else if a.toNat ≤ 0x7FFF then s
  else if a = 0xFF50 then { rawWrite s 0xFF50 v with bootRomEnabled := false }
  else if a = 0xFF46 then dmaStart (rawWrite s 0xFF46 v) v
  else if a = 0xFF04 then resetDiv s
  else if a = 0xFF44 then s
  else if a = 0xFF41 then rawWrite s 0xFF41 ((v &&& 0xF8) ||| (raw s 0xFF41 &&& 0x07))
  else if a = 0xFF45 then
    rawWrite (rawWrite s 0xFF45 v) 0xFF41 (withCoincidence (raw s 0xFF41) (s.ly == v.toNat))
  else rawWrite s a v

/-! ## The stack (R135, R136) -/

/-- `push16(v)`: high byte at SP-1, then low byte at SP-2, then SP down by 2 (R135, D11). -/
def push16 (s : State) (v : Word) : State :=
  let t := busWrite (busWrite s (s.sp - 1) (hiByte v)) (s.sp - 2) (loByte v)
  { t with sp := s.sp - 2 }

/-- The word `pop16()` returns: low byte from SP, high byte from SP+1 (R136). -/
def popValue (s : State) : Word := word (busRead s (s.sp + 1)) (busRead s s.sp)

/-- SP after `pop16()` (R136). -/
def popStack (s : State) : State := { s with sp := s.sp + 2 }

/-! ## Fetching a byte (R65) -/

/-- The byte `fetch8()` returns (R65). -/
def fetchByte (s : State) : Byte := busRead s s.pc

/-- The state after `fetch8()`: PC up by one, or the halt bug used up (R15, R18, R65). -/
def afterFetch (s : State) : State :=
  if s.haltBug then { s with haltBug := false } else { s with pc := s.pc + 1 }

/-! ## Interrupts (R311 to R317) -/

/-- `request(i)` (R311). -/
def request (s : State) (i : Nat) : State := rawWrite s 0xFF0F (raw s 0xFF0F ||| (1#8 <<< i))

/-- `pending`: requested and enabled, from raw storage (R312). -/
def pending (s : State) : Byte := raw s 0xFFFF &&& raw s 0xFF0F &&& 0x1F

/-- The lowest-numbered bit set, the priority 0 > 1 > 2 > 3 > 4 (R310, R313 step 5). -/
def lowestBit (p : Byte) : Nat :=
  if p.getLsbD 0 then 0 else if p.getLsbD 1 then 1 else if p.getLsbD 2 then 2 else if p.getLsbD 3 then 3 else 4

/-- The vector of source `i` (R310, R315). -/
def vectorOf (i : Nat) : Word := 0x0040 + 8 * BitVec.ofNat 16 i

/-- Entering the interrupt `i`: steps 4 to 6 of R313. IME 0 (and `ime_delay` 0 in the `EI_DELAY = 1` variant, log 15),
PC pushed through the gated bus, the request cleared, PC at the vector, 20 T-cycles (R316). -/
def enterInterrupt (s : State) (i : Nat) : State :=
  let s1 := { s with ime := false, imeDelay := if s.cfg.eiDelay then 0 else s.imeDelay }
  let s2 := push16 s1 s1.pc
  let s3 := rawWrite s2 0xFF0F (raw s2 0xFF0F &&& ~~~(1#8 <<< i))
  { s3 with pc := vectorOf i, cycles := s3.cycles + 20 }

/-- `service_interrupts()` (R313, R314): nothing without a pending request; otherwise the CPU wakes, and with IME the
lowest-numbered request is entered. -/
def serviceInterrupts (s : State) : State :=
  let p := pending s
  if p = 0 then s
  else
    let s1 := { s with halted := false }
    if s1.ime then enterInterrupt s1 (lowestBit p) else s1

/-- The return from a handler: PC popped, IME 1, `ime_delay` 0 (R239, R317). -/
def returnFromInterrupt (s : State) : State :=
  { popStack s with pc := popValue s, ime := true, imeDelay := 0 }

/-! ## Ending an instruction -/

/-- The meaning's answer: the state with the instruction's T-cycles added to the step's count (R92, R300). -/
def done (cycles : Nat) (s : State) : Host.Outcome State Fault Refusal :=
  .next { s with cycles := s.cycles + cycles }

end Sys2Proof.Machine
end

