-- ==== Sys2Proof/Machine/Flags.lean ====
section
/-! DEFINITION. The flags and every computation of a result with its flags (10_state R12, R13; 42_alu8 R150, R151, R180;
43_alu16 R190, R191; 44 R204). Sums are taken on unbounded numbers and reduced at the end, as the rules write them. -/

namespace Sys2Proof.Machine

/-! ## Reading and writing F (R12, R13) -/

/-- `F.Z`, bit 7. -/
def zFlag (s : State) : Bool := s.f.getLsbD 7

/-- `F.N`, bit 6. -/
def nFlag (s : State) : Bool := s.f.getLsbD 6

/-- `F.H`, bit 5. -/
def hFlag (s : State) : Bool := s.f.getLsbD 5

/-- `F.C`, bit 4. -/
def cFlag (s : State) : Bool := s.f.getLsbD 4

/-- The byte with the four flags in its top nibble and 0 in its low nibble (R12, R13). -/
def flagsByte (z n h c : Bool) : Byte :=
  (if z then 0x80 else 0) ||| (if n then 0x40 else 0) ||| (if h then 0x20 else 0) ||| (if c then 0x10 else 0)

/-- `flags <- (z, n, h, c)` (00_scope section 6). A flag that stays is written with its old value. -/
def setFlags (s : State) (z n h c : Bool) : State := { s with f := flagsByte z n h c }

/-- `F <- v`: bits 3..0 forced to 0 (R13, R140). -/
def setF (s : State) (v : Byte) : State := { s with f := v &&& 0xF0 }

/-! ## 8-bit arithmetic (R150, R151, R184) -/

/-- The value of a carry or borrow. -/
def bit (c : Bool) : Nat := if c then 1 else 0

/-- The result byte of `add8` (R150). -/
def add8 (a b : Byte) (cin : Bool) : Byte := BitVec.ofNat 8 (a.toNat + b.toNat + bit cin)

/-- H of `add8`: the carry out of bit 3 (R150). -/
def add8H (a b : Byte) (cin : Bool) : Bool := a.toNat % 16 + b.toNat % 16 + bit cin > 0xF

/-- C of `add8`: the carry out of bit 7 (R150). -/
def add8C (a b : Byte) (cin : Bool) : Bool := a.toNat + b.toNat + bit cin > 0xFF

/-- The result byte of `sub8` (R151). -/
def sub8 (a b : Byte) (cin : Bool) : Byte := BitVec.ofInt 8 ((a.toNat : Int) - b.toNat - bit cin)

/-- H of `sub8`: the borrow of bit 3 (R151). -/
def sub8H (a b : Byte) (cin : Bool) : Bool := a.toNat % 16 < b.toNat % 16 + bit cin

/-- C of `sub8`: the borrow (R151). -/
def sub8C (a b : Byte) (cin : Bool) : Bool := a.toNat < b.toNat + bit cin

/-- A and the flags after an addition to A (R150, R152, R155). -/
def addToA (s : State) (v : Byte) (cin : Bool) : State :=
  let r := add8 s.a v cin
  setFlags { s with a := r } (r == 0) false (add8H s.a v cin) (add8C s.a v cin)

/-- The flags after a subtraction or comparison (R151, R173). -/
def compareA (s : State) (v : Byte) (cin : Bool) : State :=
  setFlags s (sub8 s.a v cin == 0) true (sub8H s.a v cin) (sub8C s.a v cin)

/-- A and the flags after a subtraction from A (R151, R158, R161). -/
def subFromA (s : State) (v : Byte) (cin : Bool) : State :=
  { compareA s v cin with a := sub8 s.a v cin }

/-- A and the flags after `AND` (R164). -/
def andA (s : State) (v : Byte) : State :=
  let r := s.a &&& v
  setFlags { s with a := r } (r == 0) false true false

/-- A and the flags after `XOR` (R167). -/
def xorA (s : State) (v : Byte) : State :=
  let r := s.a ^^^ v
  setFlags { s with a := r } (r == 0) false false false

/-- A and the flags after `OR` (R170). -/
def orA (s : State) (v : Byte) : State :=
  let r := s.a ||| v
  setFlags { s with a := r } (r == 0) false false false

/-- The flags of `INC` on the byte `v`; C stays (R176). -/
def incFlags (s : State) (v : Byte) : State := setFlags s (v + 1 == 0) false (v.toNat % 16 == 0xF) (cFlag s)

/-- The flags of `DEC` on the byte `v`; C stays (R178). -/
def decFlags (s : State) (v : Byte) : State := setFlags s (v - 1 == 0) true (v.toNat % 16 == 0) (cFlag s)

/-! ## DAA (R180, C1) -/

/-- `DAA` applies the 0x60 correction after an addition: C, or A above 0x99. -/
def daaHigh (a : Byte) (n c : Bool) : Bool := if n then c else c || a.toNat > 0x99

/-- `DAA` applies the 0x06 correction: H, or after an addition a low nibble above 9. -/
def daaLow (a : Byte) (n h : Bool) : Bool := if n then h else h || a.toNat % 16 > 9

/-- The correction of `DAA`. -/
def daaOffset (a : Byte) (n h c : Bool) : Byte :=
  (if daaHigh a n c then 0x60 else 0) + (if daaLow a n h then 0x06 else 0)

/-- The result of `DAA` (R180). -/
def daaResult (a : Byte) (n h c : Bool) : Byte := if n then a - daaOffset a n h c else a + daaOffset a n h c

/-- A and the flags after `DAA`; N stays, C is never cleared (R180). -/
def daaA (s : State) : State :=
  let r := daaResult s.a (nFlag s) (hFlag s) (cFlag s)
  setFlags { s with a := r } (r == 0) (nFlag s) false (daaHigh s.a (nFlag s) (cFlag s))

/-! ## 16-bit arithmetic (R190, R191) -/

/-- H of `sp_add`: the low nibbles of SP and of the unsigned byte (R190). -/
def spAddH (sp : Word) (e : Byte) : Bool := sp.toNat % 16 + e.toNat % 16 > 0xF

/-- C of `sp_add`: the low byte of SP and the unsigned byte (R190). -/
def spAddC (sp : Word) (e : Byte) : Bool := sp.toNat % 256 + e.toNat > 0xFF

/-- The value of `sp_add`: the offset is signed (R190). -/
def spAdd (sp : Word) (e : Byte) : Word := sp + sext8 e

/-- The flags of `ADD HL,rr`; Z stays, H from bit 11, C from bit 15 (R191, C12). -/
def addHlFlags (s : State) (x y : Word) : State :=
  setFlags s (zFlag s) false (x.toNat % 4096 + y.toNat % 4096 > 0xFFF) (x.toNat + y.toNat > 0xFFFF)

/-! ## The one-bit operations (R204): the result and the carried-out bit -/

/-- `rlc`: bit 7 to bit 0 and to carry. -/
def rlc (v : Byte) : Byte × Bool := ((v <<< 1) ||| (v >>> 7), v.getLsbD 7)

/-- `rrc`: bit 0 to bit 7 and to carry. -/
def rrc (v : Byte) : Byte × Bool := ((v >>> 1) ||| (v <<< 7), v.getLsbD 0)

/-- `rl`: left through carry. -/
def rl (v : Byte) (cin : Bool) : Byte × Bool := ((v <<< 1) ||| (if cin then 0x01 else 0), v.getLsbD 7)

/-- `rr`: right through carry. -/
def rr (v : Byte) (cin : Bool) : Byte × Bool := ((v >>> 1) ||| (if cin then 0x80 else 0), v.getLsbD 0)

/-- `sla`: bit 0 becomes 0. -/
def sla (v : Byte) : Byte × Bool := (v <<< 1, v.getLsbD 7)

/-- `sra`: bit 7 keeps its value. -/
def sra (v : Byte) : Byte × Bool := ((v >>> 1) ||| (v &&& 0x80), v.getLsbD 0)

/-- `srl`: bit 7 becomes 0. -/
def srl (v : Byte) : Byte × Bool := (v >>> 1, v.getLsbD 0)

/-- `swap`: the nibbles exchanged, no carry. -/
def swap (v : Byte) : Byte × Bool := ((v <<< 4) ||| (v >>> 4), false)

/-- The flags of a CB-page rotate, shift or swap (R205 to R220). -/
def shiftFlags (s : State) (r : Byte × Bool) : State := setFlags s (r.1 == 0) false false r.2

/-- A and the flags of an accumulator rotate: Z is 0 (R200 to R203). -/
def rotateA (s : State) (r : Byte × Bool) : State := setFlags { s with a := r.1 } false false false r.2

/-! ## Bits (R221 to R226) -/

/-- The byte with only bit `b` set. -/
def bitMask (b : Fin 8) : Byte := 1#8 <<< b.val

/-- The flags of `BIT`: Z is 1 when the bit is 0; C stays (R221). -/
def bitFlags (s : State) (b : Fin 8) (v : Byte) : State := setFlags s (!v.getLsbD b.val) false true (cFlag s)

/-- `RES`: the bit cleared (R223). -/
def resBit (b : Fin 8) (v : Byte) : Byte := v &&& ~~~(bitMask b)

/-- `SET`: the bit set (R225). -/
def setBit (b : Fin 8) (v : Byte) : Byte := v ||| bitMask b

end Sys2Proof.Machine
end

