-- ==== Sys2Proof/Machine/Operands.lean ====
section
/-! DEFINITION. The operand forms: registers, pairs, the pairs of the stack group, the byte at (HL), conditions
(10_state R11; 30_encoding R83 to R85). -/

namespace Sys2Proof.Machine

/-- The register an `r8` operand names (R83). -/
def reg8 (s : State) : Reg8 → Byte
  | .b => s.b
  | .c => s.c
  | .d => s.d
  | .e => s.e
  | .h => s.h
  | .l => s.l
  | .a => s.a

/-- `R8[i] <- v` on a register (R83). -/
def setReg8 (s : State) (r : Reg8) (v : Byte) : State :=
  match r with
  | .b => { s with b := v }
  | .c => { s with c := v }
  | .d => { s with d := v }
  | .e => { s with e := v }
  | .h => { s with h := v }
  | .l => { s with l := v }
  | .a => { s with a := v }

/-- `BC = B : C` (R11). -/
def bc (s : State) : Word := word s.b s.c

/-- `DE = D : E` (R11). -/
def de (s : State) : Word := word s.d s.e

/-- `HL = H : L` (R11). -/
def hl (s : State) : Word := word s.h s.l

/-- `AF = A : F` (R11). -/
def af (s : State) : Word := word s.a s.f

/-- `HL <- v`: both halves (R11). -/
def setHl (s : State) (v : Word) : State := { s with h := hiByte v, l := loByte v }

/-- `R16[i]` (R84). -/
def r16 (s : State) : R16 → Word
  | .bc => bc s
  | .de => de s
  | .hl => hl s
  | .sp => s.sp

/-- `R16[i] <- v` (R11, R84). -/
def setR16 (s : State) (p : R16) (v : Word) : State :=
  match p with
  | .bc => { s with b := hiByte v, c := loByte v }
  | .de => { s with d := hiByte v, e := loByte v }
  | .hl => setHl s v
  | .sp => { s with sp := v }

/-- `R16S[i]` (R84). -/
def r16s (s : State) : R16S → Word
  | .bc => bc s
  | .de => de s
  | .hl => hl s
  | .af => af s

/-- `R16S[i] <- v`; a write of AF forces F's low nibble to 0 (R13, R84, R140). -/
def setR16s (s : State) (p : R16S) (v : Word) : State :=
  match p with
  | .bc => { s with b := hiByte v, c := loByte v }
  | .de => { s with d := hiByte v, e := loByte v }
  | .hl => setHl s v
  | .af => setF { s with a := hiByte v } (loByte v)

/-- `MemRead(HL, 1)`, the operand `(HL)` (R83). -/
def readHl (s : State) : Byte := busRead s (hl s)

/-- `MemWrite(HL, 1, v)`, the operand `(HL)` written (R83). -/
def writeHl (s : State) (v : Byte) : State := busWrite s (hl s) v

/-- `cond(cc)` (R85). -/
def cond (s : State) : Cond → Bool
  | .nz => !zFlag s
  | .z => zFlag s
  | .nc => !cFlag s
  | .c => cFlag s

/-- `0xFF00 + n` (R88). -/
def highPage (n : Byte) : Word := word 0xFF n

end Sys2Proof.Machine
end

