-- ==== Sys2Proof/Machine/Alu16.lean ====
section
/-! DEFINITION. 16-bit arithmetic (43_alu16 R190 to R194). -/

namespace Sys2Proof.Machine

/-- `ADD HL,rr` (R191, C12). -/
def execAddHlRr (p : R16) (s : State) : Host.Outcome State Fault Refusal :=
  done 8 (setHl (addHlFlags s (hl s) (r16 s p)) (hl s + r16 s p))

/-- `INC rr` (R192). -/
def execIncRr (p : R16) (s : State) : Host.Outcome State Fault Refusal :=
  done 8 (setR16 s p (r16 s p + 1))

/-- `DEC rr` (R193). -/
def execDecRr (p : R16) (s : State) : Host.Outcome State Fault Refusal :=
  done 8 (setR16 s p (r16 s p - 1))

/-- `ADD SP,s8` (R194). -/
def execAddSpS8 (e : Byte) (s : State) : Host.Outcome State Fault Refusal :=
  done 16 { setFlags s false false (spAddH s.sp e) (spAddC s.sp e) with sp := spAdd s.sp e }

end Sys2Proof.Machine
end

