-- ==== Sys2Proof/Machine/Alu8.lean ====
section
/-! DEFINITION. 8-bit arithmetic and logic, INC, DEC, DAA, CPL, SCF, CCF (42_alu8 R150 to R184). -/

namespace Sys2Proof.Machine

/-- `ADD A,r` (R152). -/
def execAddAR (r : Reg8) (s : State) : Host.Outcome State Fault Refusal :=
  done 4 (addToA s (reg8 s r) false)

/-- `ADD A,(HL)` (R153). -/
def execAddAHl (s : State) : Host.Outcome State Fault Refusal :=
  done 8 (addToA s (readHl s) false)

/-- `ADD A,n8` (R154). -/
def execAddAN8 (n : Byte) (s : State) : Host.Outcome State Fault Refusal :=
  done 8 (addToA s n false)

/-- `ADC A,r` (R155). -/
def execAdcAR (r : Reg8) (s : State) : Host.Outcome State Fault Refusal :=
  done 4 (addToA s (reg8 s r) (cFlag s))

/-- `ADC A,(HL)` (R156). -/
def execAdcAHl (s : State) : Host.Outcome State Fault Refusal :=
  done 8 (addToA s (readHl s) (cFlag s))

/-- `ADC A,n8` (R157). -/
def execAdcAN8 (n : Byte) (s : State) : Host.Outcome State Fault Refusal :=
  done 8 (addToA s n (cFlag s))

/-- `SUB A,r` (R158). -/
def execSubAR (r : Reg8) (s : State) : Host.Outcome State Fault Refusal :=
  done 4 (subFromA s (reg8 s r) false)

/-- `SUB A,(HL)` (R159). -/
def execSubAHl (s : State) : Host.Outcome State Fault Refusal :=
  done 8 (subFromA s (readHl s) false)

/-- `SUB A,n8` (R160). -/
def execSubAN8 (n : Byte) (s : State) : Host.Outcome State Fault Refusal :=
  done 8 (subFromA s n false)

/-- `SBC A,r` (R161). -/
def execSbcAR (r : Reg8) (s : State) : Host.Outcome State Fault Refusal :=
  done 4 (subFromA s (reg8 s r) (cFlag s))

/-- `SBC A,(HL)` (R162). -/
def execSbcAHl (s : State) : Host.Outcome State Fault Refusal :=
  done 8 (subFromA s (readHl s) (cFlag s))

/-- `SBC A,n8` (R163). -/
def execSbcAN8 (n : Byte) (s : State) : Host.Outcome State Fault Refusal :=
  done 8 (subFromA s n (cFlag s))

/-- `AND A,r` (R164). -/
def execAndAR (r : Reg8) (s : State) : Host.Outcome State Fault Refusal :=
  done 4 (andA s (reg8 s r))

/-- `AND A,(HL)` (R165). -/
def execAndAHl (s : State) : Host.Outcome State Fault Refusal :=
  done 8 (andA s (readHl s))

/-- `AND A,n8` (R166). -/
def execAndAN8 (n : Byte) (s : State) : Host.Outcome State Fault Refusal :=
  done 8 (andA s n)

/-- `XOR A,r` (R167). -/
def execXorAR (r : Reg8) (s : State) : Host.Outcome State Fault Refusal :=
  done 4 (xorA s (reg8 s r))

/-- `XOR A,(HL)` (R168). -/
def execXorAHl (s : State) : Host.Outcome State Fault Refusal :=
  done 8 (xorA s (readHl s))

/-- `XOR A,n8` (R169). -/
def execXorAN8 (n : Byte) (s : State) : Host.Outcome State Fault Refusal :=
  done 8 (xorA s n)

/-- `OR A,r` (R170). -/
def execOrAR (r : Reg8) (s : State) : Host.Outcome State Fault Refusal :=
  done 4 (orA s (reg8 s r))

/-- `OR A,(HL)` (R171). -/
def execOrAHl (s : State) : Host.Outcome State Fault Refusal :=
  done 8 (orA s (readHl s))

/-- `OR A,n8` (R172). -/
def execOrAN8 (n : Byte) (s : State) : Host.Outcome State Fault Refusal :=
  done 8 (orA s n)

/-- `CP A,r` (R173). -/
def execCpAR (r : Reg8) (s : State) : Host.Outcome State Fault Refusal :=
  done 4 (compareA s (reg8 s r) false)

/-- `CP A,(HL)` (R174). -/
def execCpAHl (s : State) : Host.Outcome State Fault Refusal :=
  done 8 (compareA s (readHl s) false)

/-- `CP A,n8` (R175). -/
def execCpAN8 (n : Byte) (s : State) : Host.Outcome State Fault Refusal :=
  done 8 (compareA s n false)

/-- `INC r` (R176). -/
def execIncR (r : Reg8) (s : State) : Host.Outcome State Fault Refusal :=
  done 4 (incFlags (setReg8 s r (reg8 s r + 1)) (reg8 s r))

/-- `INC (HL)` (R177). -/
def execIncHl (s : State) : Host.Outcome State Fault Refusal :=
  done 12 (incFlags (writeHl s (readHl s + 1)) (readHl s))

/-- `DEC r` (R178). -/
def execDecR (r : Reg8) (s : State) : Host.Outcome State Fault Refusal :=
  done 4 (decFlags (setReg8 s r (reg8 s r - 1)) (reg8 s r))

/-- `DEC (HL)` (R179). -/
def execDecHl (s : State) : Host.Outcome State Fault Refusal :=
  done 12 (decFlags (writeHl s (readHl s - 1)) (readHl s))

/-- `DAA` (R180). -/
def execDaa (s : State) : Host.Outcome State Fault Refusal :=
  done 4 (daaA s)

/-- `CPL` (R181). -/
def execCpl (s : State) : Host.Outcome State Fault Refusal :=
  done 4 (setFlags { s with a := s.a ^^^ 0xFF } (zFlag s) true true (cFlag s))

/-- `SCF` (R182). -/
def execScf (s : State) : Host.Outcome State Fault Refusal :=
  done 4 (setFlags s (zFlag s) false false true)

/-- `CCF` (R183). -/
def execCcf (s : State) : Host.Outcome State Fault Refusal :=
  done 4 (setFlags s (zFlag s) false false (!cFlag s))

end Sys2Proof.Machine
end

