-- ==== Sys2Proof/Machine/Control.lean ====
section
/-! DEFINITION. Jumps, calls, returns, RST (45_control_flow R230 to R240). PC is already past the instruction (R15). -/

namespace Sys2Proof.Machine

/-- `JP n16` (R230). -/
def execJpN16 (n : Word) (s : State) : Host.Outcome State Fault Refusal :=
  done 16 { s with pc := n }

/-- `JP cc,n16` (R231). -/
def execJpCcN16 (cc : Cond) (n : Word) (s : State) : Host.Outcome State Fault Refusal :=
  if cond s cc then done 16 { s with pc := n } else done 12 s

/-- `JP HL` (R232). -/
def execJpHl (s : State) : Host.Outcome State Fault Refusal :=
  done 4 { s with pc := hl s }

/-- `JR s8` (R233). -/
def execJrS8 (e : Byte) (s : State) : Host.Outcome State Fault Refusal :=
  done 12 { s with pc := s.pc + sext8 e }

/-- `JR cc,s8` (R234). -/
def execJrCcS8 (cc : Cond) (e : Byte) (s : State) : Host.Outcome State Fault Refusal :=
  if cond s cc then done 12 { s with pc := s.pc + sext8 e } else done 8 s

/-- `CALL n16` (R235). -/
def execCallN16 (n : Word) (s : State) : Host.Outcome State Fault Refusal :=
  done 24 { push16 s s.pc with pc := n }

/-- `CALL cc,n16` (R236). -/
def execCallCcN16 (cc : Cond) (n : Word) (s : State) : Host.Outcome State Fault Refusal :=
  if cond s cc then done 24 { push16 s s.pc with pc := n } else done 12 s

/-- `RET` (R237). -/
def execRet (s : State) : Host.Outcome State Fault Refusal :=
  done 16 { popStack s with pc := popValue s }

/-- `RET cc` (R238). -/
def execRetCc (cc : Cond) (s : State) : Host.Outcome State Fault Refusal :=
  if cond s cc then done 20 { popStack s with pc := popValue s } else done 8 s

/-- `RETI` (R239). -/
def execReti (s : State) : Host.Outcome State Fault Refusal :=
  done 16 (returnFromInterrupt s)

/-- `RST t` (R240). -/
def execRst (t : Fin 8) (s : State) : Host.Outcome State Fault Refusal :=
  done 16 { push16 s s.pc with pc := BitVec.ofNat 16 (t.val * 8) }

end Sys2Proof.Machine
end

