-- ==== Sys2Proof/Machine/Load16.lean ====
section
/-! DEFINITION. The 16-bit loads and the stack instructions (41_load16_stack R130 to R140). -/

namespace Sys2Proof.Machine

/-- `LD rr,n16` (R130). -/
def execLdRrN16 (p : R16) (n : Word) (s : State) : Host.Outcome State Fault Refusal :=
  done 12 (setR16 s p n)

/-- `LD (n16),SP`, the low byte first (R131, D11). -/
def execLdN16Sp (n : Word) (s : State) : Host.Outcome State Fault Refusal :=
  done 20 (busWrite (busWrite s n (loByte s.sp)) (n + 1) (hiByte s.sp))

/-- `LD SP,HL` (R132). -/
def execLdSpHl (s : State) : Host.Outcome State Fault Refusal :=
  done 8 { s with sp := hl s }

/-- `LD HL,SP+s8` (R133). -/
def execLdHlSpS8 (e : Byte) (s : State) : Host.Outcome State Fault Refusal :=
  done 12 (setHl (setFlags s false false (spAddH s.sp e) (spAddC s.sp e)) (spAdd s.sp e))

/-- `PUSH rr` (R137). -/
def execPushRr (p : R16S) (s : State) : Host.Outcome State Fault Refusal :=
  done 16 (push16 s (r16s s p))

/-- `PUSH AF` (R138). -/
def execPushAf (s : State) : Host.Outcome State Fault Refusal :=
  done 16 (push16 s (af s))

/-- `POP rr` (R139). -/
def execPopRr (p : R16S) (s : State) : Host.Outcome State Fault Refusal :=
  done 12 (setR16s (popStack s) p (popValue s))

/-- `POP AF` (R140). -/
def execPopAf (s : State) : Host.Outcome State Fault Refusal :=
  done 12 (setR16s (popStack s) .af (popValue s))

end Sys2Proof.Machine
end

