-- ==== Sys2Proof/Machine/Load8.lean ====
section
/-! DEFINITION. The 8-bit loads (40_load8 R100 to R118). No load writes F. -/

namespace Sys2Proof.Machine

/-- `LD r,r'` (R100). -/
def execLdRR (dst src : Reg8) (s : State) : Host.Outcome State Fault Refusal :=
  done 4 (setReg8 s dst (reg8 s src))

/-- `LD r,n8` (R101). -/
def execLdRN8 (r : Reg8) (n : Byte) (s : State) : Host.Outcome State Fault Refusal :=
  done 8 (setReg8 s r n)

/-- `LD r,(HL)` (R102). -/
def execLdRHl (dst : Reg8) (s : State) : Host.Outcome State Fault Refusal :=
  done 8 (setReg8 s dst (readHl s))

/-- `LD (HL),r` (R103). -/
def execLdHlR (r : Reg8) (s : State) : Host.Outcome State Fault Refusal :=
  done 8 (writeHl s (reg8 s r))

/-- `LD (HL),n8` (R104). -/
def execLdHlN8 (n : Byte) (s : State) : Host.Outcome State Fault Refusal :=
  done 12 (writeHl s n)

/-- `LD A,(BC)` (R105). -/
def execLdABc (s : State) : Host.Outcome State Fault Refusal :=
  done 8 { s with a := busRead s (bc s) }

/-- `LD A,(DE)` (R106). -/
def execLdADe (s : State) : Host.Outcome State Fault Refusal :=
  done 8 { s with a := busRead s (de s) }

/-- `LD (BC),A` (R107). -/
def execLdBcA (s : State) : Host.Outcome State Fault Refusal :=
  done 8 (busWrite s (bc s) s.a)

/-- `LD (DE),A` (R108). -/
def execLdDeA (s : State) : Host.Outcome State Fault Refusal :=
  done 8 (busWrite s (de s) s.a)

/-- `LD A,(n16)` (R109). -/
def execLdAN16 (n : Word) (s : State) : Host.Outcome State Fault Refusal :=
  done 16 { s with a := busRead s n }

/-- `LD (n16),A` (R110). -/
def execLdN16A (n : Word) (s : State) : Host.Outcome State Fault Refusal :=
  done 16 (busWrite s n s.a)

/-- `LDH A,(C)` (R111). -/
def execLdhAC (s : State) : Host.Outcome State Fault Refusal :=
  done 8 { s with a := busRead s (highPage s.c) }

/-- `LDH (C),A` (R112). -/
def execLdhCA (s : State) : Host.Outcome State Fault Refusal :=
  done 8 (busWrite s (highPage s.c) s.a)

/-- `LDH A,(n8)` (R113). -/
def execLdhAN8 (n : Byte) (s : State) : Host.Outcome State Fault Refusal :=
  done 12 { s with a := busRead s (highPage n) }

/-- `LDH (n8),A` (R114). -/
def execLdhN8A (n : Byte) (s : State) : Host.Outcome State Fault Refusal :=
  done 12 (busWrite s (highPage n) s.a)

/-- `LD (HL+),A` (R115). -/
def execLdHlIncA (s : State) : Host.Outcome State Fault Refusal :=
  done 8 (setHl (writeHl s s.a) (hl s + 1))

/-- `LD A,(HL+)` (R116). -/
def execLdAHlInc (s : State) : Host.Outcome State Fault Refusal :=
  done 8 (setHl { s with a := readHl s } (hl s + 1))

/-- `LD (HL-),A` (R117). -/
def execLdHlDecA (s : State) : Host.Outcome State Fault Refusal :=
  done 8 (setHl (writeHl s s.a) (hl s - 1))

/-- `LD A,(HL-)` (R118). -/
def execLdAHlDec (s : State) : Host.Outcome State Fault Refusal :=
  done 8 (setHl { s with a := readHl s } (hl s - 1))

end Sys2Proof.Machine
end

