-- ==== Sys2Proof/Machine/RotateBit.lean ====
section
/-! DEFINITION. Rotates, shifts, SWAP and the bit instructions (44_rotate_shift_bit R200 to R226). The CB-page counts include the
4 of the prefix (R255). -/

namespace Sys2Proof.Machine

/-- `RLCA` (R200). -/
def execRlca (s : State) : Host.Outcome State Fault Refusal :=
  done 4 (rotateA s (rlc s.a))

/-- `RRCA` (R201). -/
def execRrca (s : State) : Host.Outcome State Fault Refusal :=
  done 4 (rotateA s (rrc s.a))

/-- `RLA` (R202). -/
def execRla (s : State) : Host.Outcome State Fault Refusal :=
  done 4 (rotateA s (rl s.a (cFlag s)))

/-- `RRA` (R203). -/
def execRra (s : State) : Host.Outcome State Fault Refusal :=
  done 4 (rotateA s (rr s.a (cFlag s)))

/-- `RLC r` (R205). -/
def execRlcR (r : Reg8) (s : State) : Host.Outcome State Fault Refusal :=
  let out := rlc (reg8 s r)
  done 8 (shiftFlags (setReg8 s r out.1) out)

/-- `RLC (HL)` (R206). -/
def execRlcHl (s : State) : Host.Outcome State Fault Refusal :=
  let out := rlc (readHl s)
  done 16 (shiftFlags (writeHl s out.1) out)

/-- `RRC r` (R207). -/
def execRrcR (r : Reg8) (s : State) : Host.Outcome State Fault Refusal :=
  let out := rrc (reg8 s r)
  done 8 (shiftFlags (setReg8 s r out.1) out)

/-- `RRC (HL)` (R208). -/
def execRrcHl (s : State) : Host.Outcome State Fault Refusal :=
  let out := rrc (readHl s)
  done 16 (shiftFlags (writeHl s out.1) out)

/-- `RL r` (R209). -/
def execRlR (r : Reg8) (s : State) : Host.Outcome State Fault Refusal :=
  let out := rl (reg8 s r) (cFlag s)
  done 8 (shiftFlags (setReg8 s r out.1) out)

/-- `RL (HL)` (R210). -/
def execRlHl (s : State) : Host.Outcome State Fault Refusal :=
  let out := rl (readHl s) (cFlag s)
  done 16 (shiftFlags (writeHl s out.1) out)

/-- `RR r` (R211). -/
def execRrR (r : Reg8) (s : State) : Host.Outcome State Fault Refusal :=
  let out := rr (reg8 s r) (cFlag s)
  done 8 (shiftFlags (setReg8 s r out.1) out)

/-- `RR (HL)` (R212). -/
def execRrHl (s : State) : Host.Outcome State Fault Refusal :=
  let out := rr (readHl s) (cFlag s)
  done 16 (shiftFlags (writeHl s out.1) out)

/-- `SLA r` (R213). -/
def execSlaR (r : Reg8) (s : State) : Host.Outcome State Fault Refusal :=
  let out := sla (reg8 s r)
  done 8 (shiftFlags (setReg8 s r out.1) out)

/-- `SLA (HL)` (R214). -/
def execSlaHl (s : State) : Host.Outcome State Fault Refusal :=
  let out := sla (readHl s)
  done 16 (shiftFlags (writeHl s out.1) out)

/-- `SRA r` (R215). -/
def execSraR (r : Reg8) (s : State) : Host.Outcome State Fault Refusal :=
  let out := sra (reg8 s r)
  done 8 (shiftFlags (setReg8 s r out.1) out)

/-- `SRA (HL)` (R216). -/
def execSraHl (s : State) : Host.Outcome State Fault Refusal :=
  let out := sra (readHl s)
  done 16 (shiftFlags (writeHl s out.1) out)

/-- `SWAP r` (R217). -/
def execSwapR (r : Reg8) (s : State) : Host.Outcome State Fault Refusal :=
  let out := swap (reg8 s r)
  done 8 (shiftFlags (setReg8 s r out.1) out)

/-- `SWAP (HL)` (R218). -/
def execSwapHl (s : State) : Host.Outcome State Fault Refusal :=
  let out := swap (readHl s)
  done 16 (shiftFlags (writeHl s out.1) out)

/-- `SRL r` (R219). -/
def execSrlR (r : Reg8) (s : State) : Host.Outcome State Fault Refusal :=
  let out := srl (reg8 s r)
  done 8 (shiftFlags (setReg8 s r out.1) out)

/-- `SRL (HL)` (R220). -/
def execSrlHl (s : State) : Host.Outcome State Fault Refusal :=
  let out := srl (readHl s)
  done 16 (shiftFlags (writeHl s out.1) out)

/-- `BIT b,r` (R221). -/
def execBitBR (b : Fin 8) (r : Reg8) (s : State) : Host.Outcome State Fault Refusal :=
  done 8 (bitFlags s b (reg8 s r))

/-- `BIT b,(HL)` (R222). -/
def execBitBHl (b : Fin 8) (s : State) : Host.Outcome State Fault Refusal :=
  done 12 (bitFlags s b (readHl s))

/-- `RES b,r` (R223). -/
def execResBR (b : Fin 8) (r : Reg8) (s : State) : Host.Outcome State Fault Refusal :=
  done 8 (setReg8 s r (resBit b (reg8 s r)))

/-- `RES b,(HL)` (R224). -/
def execResBHl (b : Fin 8) (s : State) : Host.Outcome State Fault Refusal :=
  done 16 (writeHl s (resBit b (readHl s)))

/-- `SET b,r` (R225). -/
def execSetBR (b : Fin 8) (r : Reg8) (s : State) : Host.Outcome State Fault Refusal :=
  done 8 (setReg8 s r (setBit b (reg8 s r)))

/-- `SET b,(HL)` (R226). -/
def execSetBHl (b : Fin 8) (s : State) : Host.Outcome State Fault Refusal :=
  done 16 (writeHl s (setBit b (readHl s)))

end Sys2Proof.Machine
end

