-- ==== Sys2Proof/Machine/System.lean ====
section
/-! DEFINITION. NOP, HALT, STOP, DI, EI, the CB prefix, the illegal opcodes (46_system R250 to R256). None writes F. -/

namespace Sys2Proof.Machine

/-- `NOP` (R250). -/
def execNop (s : State) : Host.Outcome State Fault Refusal :=
  done 4 s

/-- `HALT`, the three cases (R251): halted, or the halt bug with `IME = 0` and a pending request. -/
def execHalt (s : State) : Host.Outcome State Fault Refusal :=
  if s.ime then done 4 { s with halted := true }
  else if pending s ≠ 0 then done 4 { s with haltBug := true }
  else done 4 { s with halted := true }

/-- `STOP` (R252, D27): the pad byte has been fetched and is ignored, DIV is reset, the CPU halts. -/
def execStop (_pad : Byte) (s : State) : Host.Outcome State Fault Refusal :=
  done 4 { resetDiv s with halted := true }

/-- `DI` (R253). -/
def execDi (s : State) : Host.Outcome State Fault Refusal :=
  done 4 { s with ime := false, imeDelay := 0 }

/-- `EI` (R254, D6): at once with `EI_DELAY = 0`; with `EI_DELAY = 1` the counter starts at 2, unless IME is 1 or a
count runs. -/
def execEi (s : State) : Host.Outcome State Fault Refusal :=
  if s.cfg.eiDelay then
    if !s.ime && s.imeDelay == 0 then done 4 { s with imeDelay := 2 } else done 4 s
  else done 4 { s with ime := true }

/-- An illegal opcode: a no-operation of 4 T-cycles (R91, R256). -/
def execIllegal (_op : Byte) (s : State) : Host.Outcome State Fault Refusal :=
  done 4 s

/-- `PREFIX CB` (R255): the CB-page instruction with the opcode `op2` executes; its count includes the prefix's 4.
The byte `op2` has been fetched. Log 11. -/
def execPrefixCb (op2 : Byte) (s : State) : Host.Outcome State Fault Refusal :=
  match fieldX op2, fieldY op2, reg8OfField (fieldZ op2) with
  | 0, 0, some r => execRlcR r s
  | 0, 0, none => execRlcHl s
  | 0, 1, some r => execRrcR r s
  | 0, 1, none => execRrcHl s
  | 0, 2, some r => execRlR r s
  | 0, 2, none => execRlHl s
  | 0, 3, some r => execRrR r s
  | 0, 3, none => execRrHl s
  | 0, 4, some r => execSlaR r s
  | 0, 4, none => execSlaHl s
  | 0, 5, some r => execSraR r s
  | 0, 5, none => execSraHl s
  | 0, 6, some r => execSwapR r s
  | 0, 6, none => execSwapHl s
  | 0, 7, some r => execSrlR r s
  | 0, 7, none => execSrlHl s
  | 1, b, some r => execBitBR b r s
  | 1, b, none => execBitBHl b s
  | 2, b, some r => execResBR b r s
  | 2, b, none => execResBHl b s
  | 3, b, some r => execSetBR b r s
  | 3, b, none => execSetBHl b s

end Sys2Proof.Machine
end

