-- ==== Sys2Proof/Machine/Fetch.lean ====
section
/-! DEFINITION. Fetching an instruction: the opcode byte and the operand bytes its length asks for, each by `fetch8`
(20_memory R65, R66; 30_encoding R82; log 13). -/

namespace Sys2Proof.Machine

/-- The instruction at PC and the state after its bytes have been fetched (R65, R66, R82). -/
def fetchInstr (s : State) : Instr × State :=
  let op := fetchByte s
  let s1 := afterFetch s
  match instrLength op with
  | 1 => (decodeBytes op 0 0, s1)
  | 2 => (decodeBytes op (fetchByte s1) 0, afterFetch s1)
  | _ => (decodeBytes op (fetchByte s1) (fetchByte (afterFetch s1)), afterFetch (afterFetch s1))

end Sys2Proof.Machine
end

