-- ==== Sys2Proof/Machine/Ppu.lean ====
section
/-! DEFINITION. The PPU: the mode sequencer, the OAM scan and the scanline renderer, on raw storage (60_exceptions R360 to
R369). -/

namespace Sys2Proof.Machine

/-! ## Modes (R361, R34) -/

/-- The code of a mode in STAT bits 1..0 (R34, R361, D7). -/
def PpuMode.code : PpuMode → Byte
  | .hblank => 0
  | .vblank => 1
  | .oamScan => 2
  | .drawing => 3

/-- The T-cycles of a mode, of one line in VBLANK (R361). -/
def PpuMode.duration : PpuMode → Nat
  | .hblank => 204
  | .vblank => 456
  | .oamScan => 80
  | .drawing => 172

/-- `set_mode(m)` (R361). -/
def setMode (s : State) (m : PpuMode) : State :=
  { rawWrite s 0xFF41 ((raw s 0xFF41 &&& 0xFC) ||| m.code) with ppuMode := m }

/-- `if STAT[b] == 1: request(1)` (R360, R362). -/
def requestStat (s : State) (b : Nat) : State := if (raw s 0xFF41).getLsbD b then request s 1 else s

/-- `set_ly(n)`: LY and its mirror, the coincidence bit, and the request on a match (R363, D16). -/
def setLy (s : State) (n : Nat) : State :=
  let s1 := { rawWrite s 0xFF44 (BitVec.ofNat 8 n) with ly := n }
  let equal := n == (raw s1 0xFF45).toNat
  let s2 := rawWrite s1 0xFF41 (withCoincidence (raw s1 0xFF41) equal)
  if equal then requestStat s2 6 else s2

/-! ## The OAM scan (R364) -/

/-- The sprite height, by LCDC bit 2 (R33). -/
def spriteHeight (s : State) : Nat := if (raw s 0xFF40).getLsbD 2 then 16 else 8

/-- OAM entry `k` as a sprite record (R364). -/
def oamEntry (s : State) (k : Nat) : Sprite :=
  let at' (i : Nat) : Byte := raw s (BitVec.ofNat 16 (0xFE00 + 4 * k + i))
  { y := at' 0, x := at' 1, tile := at' 2, attrs := at' 3, index := k }

/-- The sprite covers the line: `LY >= Y-16 && LY < Y-16 + height`, on integers (R364). -/
def onLine (ly height : Nat) (sp : Sprite) : Bool := sp.y.toNat ≤ ly + 16 && ly + 16 < sp.y.toNat + height

/-- A record put before the first one with the same or a higher X (R364). -/
def insertByX (sp : Sprite) : List Sprite → List Sprite
  | [] => [sp]
  | t :: ts => if sp.x.toNat ≤ t.x.toNat then sp :: t :: ts else t :: insertByX sp ts

/-- The stable sort by X: an earlier record stays before a later one with the same X (R364). -/
def sortByX : List Sprite → List Sprite
  | [] => []
  | sp :: ts => insertByX sp (sortByX ts)

/-- The first ten sprites on the line, in OAM order (R364). -/
def visibleSprites (s : State) : List Sprite :=
  (((List.range 40).map (oamEntry s)).filter (onLine s.ly (spriteHeight s))).take 10

/-- `oam_scan()` (R364, D22). -/
def oamScan (s : State) : State := { s with sprites := sortByX (visibleSprites s) }

/-! ## Pixels (R365 to R368) -/

/-- `Raw` at an address given as an integer, modulo 65536 (R64). -/
def rawAt (s : State) (a : Int) : Byte := raw s (BitVec.ofInt 16 a)

/-- The colour number of bit `b` of a tile row's two bytes (R365). -/
def colorNumber (b1 b2 : Byte) (b : Nat) : BitVec 2 :=
  (if b2.getLsbD b then 2 else 0) ||| (if b1.getLsbD b then 1 else 0)

/-- The shade of a colour number in a palette: `(pal >> (cn * 2)) & 3` (R365, R367). -/
def shadeOf (palette : Byte) (cn : BitVec 2) : BitVec 2 := palette.extractLsb' (cn.toNat * 2) 2

/-- `tile_pixel(id, col, row)` (R365). -/
def tilePixel (s : State) (id : Byte) (col row : Nat) : BitVec 2 :=
  let pat : Int := if (raw s 0xFF40).getLsbD 4 then 0x8000 + id.toNat * 16 else 0x9000 + id.toInt * 16
  colorNumber (rawAt s (pat + row * 2)) (rawAt s (pat + row * 2 + 1)) (7 - col)

/-- `bg_pixel(x)` (R365). -/
def bgPixel (s : State) (x : Nat) : BitVec 2 :=
  let wx := ((raw s 0xFF43).toNat + x) % 256
  let wy := ((raw s 0xFF42).toNat + s.ly) % 256
  let map : Int := if (raw s 0xFF40).getLsbD 3 then 0x9C00 else 0x9800
  tilePixel s (rawAt s (map + (wy / 8 * 32 + wx / 8 : Nat))) (wx % 8) (wy % 8)

/-- The window covers column `x` of the line (R366). -/
def inWindow (s : State) (x : Nat) : Bool :=
  (raw s 0xFF40).getLsbD 5 && (raw s 0xFF4A).toNat ≤ s.ly && (raw s 0xFF4B).toNat ≤ x + 7

/-- `win_pixel(x)`, for a column the window covers (R366, D39). -/
def winPixel (s : State) (x : Nat) : BitVec 2 :=
  let lx := x + 7 - (raw s 0xFF4B).toNat
  let ly := s.ly - (raw s 0xFF4A).toNat
  let map : Int := if (raw s 0xFF40).getLsbD 6 then 0x9C00 else 0x9800
  tilePixel s (rawAt s (map + (ly / 8 * 32 + lx / 8 : Nat))) (lx % 8) (ly % 8)

/-- The tile and the row within it of a sprite at line offset `row` (R367, D24; log 17). -/
def spriteTileRow (swaps tall : Bool) (sp : Sprite) (row : Int) : Nat × Int :=
  let yflip := sp.attrs.getLsbD 6
  let row := if tall && swaps && yflip then 15 - row else row
  let (t, r) :=
    if tall then
      if row < 8 then ((sp.tile &&& 0xFE).toNat, row) else ((sp.tile ||| 0x01).toNat, row - 8)
    else (sp.tile.toNat, row)
  (t, if yflip && !(tall && swaps) then 7 - r else r)

/-- The colour number of a sprite at column `x`, if the sprite covers the column (R367). -/
def spriteColor (s : State) (x : Nat) (sp : Sprite) : Option (BitVec 2) :=
  if sp.x.toNat ≤ x + 8 ∧ x < sp.x.toNat then
    let (t, r) := spriteTileRow s.cfg.sprite16YFlipSwapsTiles ((raw s 0xFF40).getLsbD 2) sp
      ((s.ly : Int) + 16 - sp.y.toNat)
    let col := x + 8 - sp.x.toNat
    let b := if sp.attrs.getLsbD 5 then col else 7 - col
    let row : Int := 0x8000 + t * 16 + r * 2
    some (colorNumber (rawAt s row) (rawAt s (row + 1)) b)
  else none

/-- The shade a sprite shows at column `x` over the colour number `under`, unless it is transparent or hidden there
(R367). -/
def spriteShade (s : State) (x : Nat) (under : BitVec 2) (sp : Sprite) : Option (BitVec 2) :=
  match spriteColor s x sp with
  | none => none
  | some cn =>
    if cn = 0 then none
    else if sp.attrs.getLsbD 7 ∧ under ≠ 0 then none
    else some (shadeOf (raw s (if sp.attrs.getLsbD 4 then 0xFF49 else 0xFF48)) cn)

/-- `sprite_pixel(x, under)`: the first sprite of the list that shows (R367). -/
def spritePixel (s : State) (x : Nat) (under : BitVec 2) : Option (BitVec 2) :=
  if (raw s 0xFF40).getLsbD 1 then s.sprites.findSome? (spriteShade s x under) else none

/-- The colour number of the background or window at column `x` (R366, R368). -/
def underPixel (s : State) (x : Nat) : BitVec 2 := if inWindow s x then winPixel s x else bgPixel s x

/-- The pixel of column `x` (R368). -/
def renderPixel (s : State) (x : Nat) : Pixel :=
  let cn := underPixel s x
  { x := x, y := s.ly, shade := (spritePixel s x cn).getD (shadeOf (raw s 0xFF47) cn) }

/-- `render_scanline()`: 160 pixels in increasing x (R368, D23). -/
def renderScanline (s : State) : State :=
  { s with pixelOut := s.pixelOut ++ (List.range 160).map (renderPixel s) }

/-! ## The sequencer (R360, R362) -/

/-- The transition out of the current mode, whose duration has been taken off the counter (R360). -/
def leaveMode (s : State) : State :=
  match s.ppuMode with
  | .oamScan => setMode (oamScan s) .drawing
  | .drawing => requestStat (setMode (renderScanline s) .hblank) 3
  | .hblank =>
    let s1 := setLy s (s.ly + 1)
    if s1.ly = 144 then requestStat (request (setMode s1 .vblank) 0) 4
    else requestStat (setMode s1 .oamScan) 5
  | .vblank =>
    if s.ly = 153 then requestStat (setMode (setLy s 0) .oamScan) 5 else setLy s (s.ly + 1)

/-- The loop of R360, at most `fuel` transitions. -/
def ppuLoop : Nat → State → State
  | 0, s => s
  | fuel + 1, s =>
    if s.ppuMode.duration ≤ s.ppuCounter then
      ppuLoop fuel (leaveMode { s with ppuCounter := s.ppuCounter - s.ppuMode.duration })
    else s

/-- `ppu_step(c)` (R360). Every transition takes 80 or more off the counter, so the fuel covers them all (log 16). -/
def ppuStep (s : State) (c : Nat) : State :=
  let n := s.ppuCounter + c
  ppuLoop (n / 80 + 1) { s with ppuCounter := n }

end Sys2Proof.Machine
end

