-- ==== Sys2Proof/Machine/Timer.lean ====
section
/-! DEFINITION. The timer, the DMA lockout's counter and the serial tap, advanced once a step on raw storage
(60_exceptions R303, R340 to R343, R351). -/

namespace Sys2Proof.Machine

/-! ## DIV (R340, R341) -/

/-- `n` increments of DIV, modulo 256. -/
def divTick (s : State) (n : Nat) : State := rawWrite s 0xFF04 (raw s 0xFF04 + BitVec.ofNat 8 n)

/-- DIV takes `c` T-cycles: one increment for every 256 accumulated (R340). -/
def divStep (s : State) (c : Nat) : State :=
  let acc := s.divAcc + c
  { divTick s (acc / 256) with divAcc := acc % 256 }

/-! ## TIMA (R340, R342) -/

/-- TAC bit 2: the timer is enabled (R31). -/
def timerOn (s : State) : Bool := (raw s 0xFF07).getLsbD 2

/-- The T-cycles of one TIMA increment, by TAC bits 1..0 (R31, R340). -/
def timaThreshold (tac : Byte) : Nat :=
  if tac.getLsbD 1 then (if tac.getLsbD 0 then 256 else 64) else (if tac.getLsbD 0 then 16 else 1024)

/-- One increment of TIMA: the wrap reloads it from TMA and requests interrupt 2 (R340, R342). -/
def timaTick (s : State) : State :=
  if raw s 0xFF05 = 0xFF then request (rawWrite s 0xFF05 (raw s 0xFF06)) 2
  else rawWrite s 0xFF05 (raw s 0xFF05 + 1)

/-- `n` increments of TIMA. -/
def timaTicks : Nat → State → State
  | 0, s => s
  | n + 1, s => timaTicks n (timaTick s)

/-- TIMA takes `c` T-cycles while the timer is enabled (R340, R343). -/
def timaStep (s : State) (c : Nat) : State :=
  if timerOn s then
    let acc := s.timaAcc + c
    let thr := timaThreshold (raw s 0xFF07)
    { timaTicks (acc / thr) s with timaAcc := acc % thr }
  else s

/-- `timer_step(c)` (R340). -/
def timerStep (s : State) (c : Nat) : State := timaStep (divStep s c) c

/-! ## The DMA lockout (R351) -/

/-- `dma_step(c)`: the lockout ends when 640 T-cycles have passed (R351, D38). -/
def dmaStep (s : State) (c : Nat) : State :=
  if s.dmaRunning then
    let n := min (s.dmaCounter + c) 640
    { s with dmaCounter := n, dmaRunning := !(n == 640) }
  else s

/-! ## The serial tap (R303, D37) -/

/-- `serial_tap()`: a 7-bit SB with SC = 0x81 is emitted and SC cleared (R303). -/
def serialTap (s : State) : State :=
  if (raw s 0xFF01).toNat < 0x80 ∧ raw s 0xFF02 = 0x81 then
    { rawWrite s 0xFF02 0 with serialOut := s.serialOut ++ [raw s 0xFF01] }
  else s

end Sys2Proof.Machine
end

