-- ==== Sys2Proof/Machine/Tick.lean ====
section
/-! DEFINITION. The tick loop around an instruction: the host at a frame boundary, the interrupt service, fetch and
execute, the devices (60_exceptions R300 to R304, R370). -/

namespace Sys2Proof.Machine

/-! ## The host between frames (R2, R301, R370) -/

/-- A frame begins before the next step: `frame_cycles` is 0 or has reached `CYCLES_PER_FRAME` (R301, log 8). -/
def atFrameBoundary (s : State) : Bool := s.frameCycles == 0 || cyclesPerFrame ≤ s.frameCycles

/-- Some button is released in `old` and pressed in `new` (R370). -/
def newlyPressed (old new : Buttons) : Bool :=
  (!old.a && new.a) || (!old.b && new.b) || (!old.select && new.select) || (!old.start && new.start) ||
    (!old.up && new.up) || (!old.down && new.down) || (!old.left && new.left) || (!old.right && new.right)

/-- One action of the host: the buttons, the joypad request for a press, `running` cleared (R2, R301, R370). -/
def applyHostInput (s : State) (i : HostInput) : State :=
  let s1 := if newlyPressed s.buttons i.buttons then request s 4 else s
  { s1 with buttons := i.buttons, running := s.running && !i.stop }

/-- At a frame boundary `frame_cycles` starts again and the host's next action is taken; with none left the host does
nothing (R301, log 8). -/
def hostBoundary (s : State) : State :=
  if atFrameBoundary s then
    match s.hostInputs with
    | [] => { s with frameCycles := 0 }
    | i :: is => { applyHostInput s i with frameCycles := 0, hostInputs := is }
  else s

/-! ## One step (R300) -/

/-- The step's outputs and its T-cycle count start empty (R300, log 6, log 7). -/
def beginStep (s : State) : State := { s with cycles := 0, pixelOut := [], serialOut := [] }

/-- With `EI_DELAY = 1`, a running `ime_delay` counts down after an executed instruction and sets IME at 0 (R254,
R300). -/
def promoteIme (s : State) : State :=
  if s.cfg.eiDelay && 0 < s.imeDelay then
    { s with imeDelay := s.imeDelay - 1, ime := s.ime || s.imeDelay == 1 }
  else s

/-- The devices take the step's T-cycles, in the order PPU, timer, DMA; then the serial tap and the frame count
(R300, R304). -/
def advanceDevices (s : State) : State :=
  let s1 := ppuStep s s.cycles
  let s2 := timerStep s1 s.cycles
  let s3 := dmaStep s2 s.cycles
  let s4 := serialTap s3
  { s4 with frameCycles := s.frameCycles + s.cycles }

/-- What follows an executed instruction: the countdown and the devices (R300). -/
def finishInstr : Host.Outcome State Fault Refusal → Host.Outcome State Fault Refusal
  | .next s => .next (advanceDevices (promoteIme s))
  | .fault r => .fault r
  | .refused r => .refused r

/-- `step()` of R300: service, then one instruction or one halted tick, then the devices (R302). -/
def cpuStep (s : State) : Host.Outcome State Fault Refusal :=
  let s1 := serviceInterrupts (beginStep s)
  if s1.halted then .next (advanceDevices { s1 with cycles := s1.cycles + 4 })
  else finishInstr (exec (fetchInstr s1).1 (fetchInstr s1).2)

/-! ## An instruction where the next step fetches it (log 19) -/

/-- Bytes put into raw storage from an address on. -/
def storeBytes : List Byte → Word → State → State
  | [], _, s => s
  | v :: vs, a, s => storeBytes vs (a + 1) (rawWrite s a v)

/-- The address the next step fetches from: PC after the host's action and the interrupt service (R300, R301, R313). -/
def nextFetchAddress (s : State) : Word := (serviceInterrupts (beginStep (hostBoundary s))).pc

/-- The bytes put where the next step fetches, and what would keep the step from fetching them in order taken away: a
halt, the halt bug, a DMA lockout outside HRAM, the boot ROM shadow over them (log 19). -/
def placeInstr (bytes : List Byte) (s : State) : State :=
  let a := nextFetchAddress s
  { storeBytes bytes a s with
    halted := false
    haltBug := false
    dmaRunning := s.dmaRunning && inHram a
    bootRomEnabled := s.bootRomEnabled && !(decide (a.toNat < 0x100)) }

end Sys2Proof.Machine
end

