-- ==== Sys2Proof/Machine/Step.lean ====
section
/-! DEFINITION. One pass of the tick loop (60_exceptions R300, R301), and the state with an instruction where the next
pass fetches it. -/

namespace Sys2Proof.Machine

/-- One step: in a stopped machine none (R19, R301; log 9); otherwise the host's action where a frame begins, and, unless
it stopped the machine, `step()` of R300. -/
def step (s : State) : Host.Outcome State Fault Refusal :=
  if s.running then
    if (hostBoundary s).running then cpuStep (hostBoundary s) else .next (beginStep (hostBoundary s))
  else .fault .notRunning

/-- The state with a table row's instruction stored where `step` fetches its next one (log 10, log 19). -/
def State.withFetchWord (s : State) (nbits w : Nat) : State := placeInstr (tableWordBytes nbits w) s

end Sys2Proof.Machine
end

