-- ==== Sys2Proof/Machine/Reset.lean ====
section
/-! DEFINITION. Power-on for any arguments: `reset(BOOT_ROM, CART, RESET_REGS)` (70_reset R400 to R402). -/

namespace Sys2Proof.Machine

/-- `load_cart(CART)` from the file's byte `i` on: byte `i` goes to `Raw[i]` while `i` is at most 0xFFFF (R401, D31;
log 22). -/
def loadFrom : List Byte → Nat → Memory → Memory
  | [], _, m => m
  | v :: vs, i, m =>
    if i < 0x10000 then loadFrom vs (i + 1) (m.write (phys (BitVec.ofNat 16 i)) v) else m

/-- `load_cart(CART)` into storage that reads 0x00 everywhere (R400 steps 1 and 2, R401). -/
def loadCart (cart : List Byte) : Memory := loadFrom cart 0 (Memory.write [] 0xFF41 0)

/-- Step 6 of R400: LY's mirror 0, STAT's mode bits OAM_SCAN, its coincidence bit `Raw[0xFF45] == 0`. -/
def resetPpu (s : State) : State :=
  let s1 := { rawWrite s 0xFF44 0 with ppuMode := .oamScan, ppuCounter := 0, ly := 0, sprites := [] }
  rawWrite s1 0xFF41 ((raw s1 0xFF41 &&& 0xF8) ||| 0x02 ||| (if raw s1 0xFF45 = 0 then 0x04 else 0))

/-- `reset(BOOT_ROM, CART, RESET_REGS)` (R400). `cfg` carries `BOOT_ROM` and the three Boolean parameters. -/
def powerOn (cfg : Config) (cart : List Byte) (regs : ResetRegs) : State :=
  resetPpu
    { State.reset with
      cfg := cfg
      mem := loadCart cart
      bootRomEnabled := cfg.bootRom.isSome
      a := regs.a
      f := regs.f &&& 0xF0
      b := regs.b
      c := regs.c
      d := regs.d
      e := regs.e
      h := regs.h
      l := regs.l
      sp := regs.sp
      pc := if cfg.bootRom.isSome then 0x0000 else 0x0100 }

end Sys2Proof.Machine
end

