-- ==== Sys2Proof/Safety.lean ====
section
/-! DEFINITION. What holds at every instruction boundary (10_state R36, R5), and the words claims use for what a store
can reach. -/

namespace Sys2Proof.Machine

/-! ## The invariant (R36) -/

/-- "Low nibble of the flags byte is zero" (R36.1, R13). -/
abbrev State.FlagsOk (s : State) : Prop := s.f &&& 0x0F = 0

/-- LY is 0..153 and mirrored at 0xFF44 (R36.2). -/
abbrev State.LyOk (s : State) : Prop := s.ly ≤ 153 ∧ (raw s 0xFF44).toNat = s.ly

/-- STAT bits 1..0 are the mode's code (R36.3). -/
abbrev State.ModeOk (s : State) : Prop := raw s 0xFF41 &&& 0x03 = s.ppuMode.code

/-- STAT bit 2 is set exactly when LY is LYC (R36.4). -/
abbrev State.CoincidenceOk (s : State) : Prop := (raw s 0xFF41).getLsbD 2 = (s.ly == (raw s 0xFF45).toNat)

/-- At most ten sprites, sorted by X (R36.5). -/
abbrev State.SpritesOk (s : State) : Prop :=
  s.sprites.length ≤ 10 ∧ s.sprites.Pairwise (fun u v => u.x.toNat ≤ v.x.toNat)

/-- The shadow is on only where there is a boot ROM (R22). -/
abbrev State.BootOk (s : State) : Prop := s.bootRomEnabled = true → s.cfg.bootRom.isSome = true

/-- The mode counter is below the mode's duration (R360, R361). -/
abbrev State.PpuCounterOk (s : State) : Prop := s.ppuCounter < s.ppuMode.duration

/-- VBLANK is exactly the lines 144 to 153 (R361). -/
abbrev State.VblankOk (s : State) : Prop := s.ppuMode = .vblank ↔ 144 ≤ s.ly

/-- The timer's accumulators after a step (R340, C8). -/
abbrev State.TimerOk (s : State) : Prop := s.divAcc < 256 ∧ s.timaAcc < 1024

/-- The lockout's counter: 0..640, below 640 while a DMA runs (R25, R351). -/
abbrev State.DmaOk (s : State) : Prop := s.dmaCounter ≤ 640 ∧ (s.dmaRunning = true → s.dmaCounter < 640)

/-- `ime_delay` is 0 or 1 at a boundary, and 0 with `EI_DELAY = 0` (R20, R254). -/
abbrev State.ImeDelayOk (s : State) : Prop := s.imeDelay ≤ 1 ∧ (s.cfg.eiDelay = false → s.imeDelay = 0)

/-- The invariant of the machine at instruction boundaries: R36 items 1 to 5, storage in its canonical form, and the
bounds the rules give the counters. -/
structure State.Inv (s : State) : Prop where
  mem : s.mem.wf
  flags : s.FlagsOk
  ly : s.LyOk
  mode : s.ModeOk
  coincidence : s.CoincidenceOk
  sprites : s.SpritesOk
  boot : s.BootOk
  ppuCounter : s.PpuCounterOk
  vblank : s.VblankOk
  timer : s.TimerOk
  dma : s.DmaOk
  imeDelay : s.ImeDelayOk
  frame : s.frameCycles < cyclesPerFrame + 44

/-! ## Safe runs -/

/-- A state `step` answers with a next state, and keeps doing so for `n` steps. -/
def State.runs : Nat → State → Prop
  | 0, _ => True
  | n + 1, s => ∃ t, step s = .next t ∧ t.runs n

/-! ## Where a store lands (R41, R52 to R58) -/

/-- Plain storage for the CPU whatever the PPU does: no ROM, no VRAM or OAM, none of the registers whose store is
special (R41, R52). -/
def plainStore (a : Word) : Bool :=
  decide (0x8000 ≤ a.toNat) && !inVram a && !inOam a && a != 0xFF50 && a != 0xFF46 && a != 0xFF04 && a != 0xFF44 &&
    a != 0xFF41 && a != 0xFF45

/-- The storage addresses a CPU store to `a` can change: its own byte, OAM for the DMA register, STAT for LYC (R52, R56,
R58). -/
def storeReaches (a : Word) (k : Word) : Bool :=
  phys k == phys a || (a == 0xFF46 && inOam k) || (a == 0xFF45 && k == 0xFF41)

/-- Work RAM and HRAM: bytes a running CPU reads back as written when no DMA runs (R41). -/
def ramByte (a : Word) : Bool := decide (0xC000 ≤ a.toNat) && decide (a.toNat ≤ 0xDFFF) || inHram a

/-! ## The words of the per-instruction claims -/

/-- The bytes are the instruction: decoding them gives it, whatever follows (R81, R82). -/
def Decodes (bytes : List Byte) (i : Instr) : Prop := ∀ rest, decode (bytes ++ rest) = .ok (i, rest)

/-- One form of a family: its bytes, the instruction, the address and the byte it works on, its T-cycles. -/
structure Form where
  bytes : List Byte
  instr : Instr
  address : Word := 0
  operand : Byte := 0
  cycles : Nat

/-- The four flags have these values and F's low nibble is 0 (R12, R13). -/
def State.HasFlags (s : State) (z n h c : Bool) : Prop :=
  zFlag s = z ∧ nFlag s = n ∧ hFlag s = h ∧ cFlag s = c ∧ s.f &&& 0x0F = 0

/-- The registers and control flags of the CPU are the same (R10 to R20). -/
def State.SameCpu (s t : State) : Prop :=
  t.a = s.a ∧ t.f = s.f ∧ t.b = s.b ∧ t.c = s.c ∧ t.d = s.d ∧ t.e = s.e ∧ t.h = s.h ∧ t.l = s.l ∧ t.sp = s.sp ∧
    t.pc = s.pc ∧ t.ime = s.ime ∧ t.halted = s.halted ∧ t.haltBug = s.haltBug ∧ t.imeDelay = s.imeDelay

/-- Only registers an `r8` operand names may differ, and the step's count by `k` (R83, R92). -/
def State.OnlyReg8 (s t : State) (k : Nat) : Prop :=
  t = { s with a := t.a, b := t.b, c := t.c, d := t.d, e := t.e, h := t.h, l := t.l, cycles := s.cycles + k }

end Sys2Proof.Machine

namespace Sys2Proof

/-- The condition of a conditional instruction (R85, R231, R234, R236, R238). -/
def Instr.condition : Instr → Option Cond
  | .jrCcS8 cc _ => some cc
  | .jpCcN16 cc _ => some cc
  | .callCcN16 cc _ => some cc
  | .retCc cc => some cc
  | _ => none

end Sys2Proof
end

