-- ==== Sys2Proof/Certificates/Slice0/Obligations.lean ====
section
/-! DEFINITION. What the provers are asked to show: the spec's rules as statements about the model. `OBLIGATIONS.json` gives
each its title, its rules and their words. -/

open Sys2Proof Sys2Proof.Machine

/-- Decode and encode agree on every well-formed instruction (30_encoding R80 to R90). The row PREFIX CB decodes to the
CB-page instruction (R255; log 11). -/
def Obligations.DecodeEncodeRoundTrip : Prop :=
  (∀ (i : Instr) (rest : List Byte), i.wf = true → decode (i.encode ++ rest) = .ok (i.resolve, rest)) ∧
  (∀ op2 : Byte, (Instr.prefixCb op2).resolve = decodeCb op2) ∧
  (∀ i : Instr, (∀ op2 : Byte, i ≠ .prefixCb op2) → i.resolve = i)

/-- The other direction of the round trip: each byte string has one meaning (30_encoding R80 to R91). -/
def Obligations.DecodedBytesEncodeBack : Prop :=
  ∀ (bytes : List Byte) (i : Instr) (rest : List Byte), decode bytes = .ok (i, rest) →
    i.wf = true ∧ (∀ op2 : Byte, i ≠ .prefixCb op2) ∧ bytes = i.encode ++ rest

/-- The table's rows partition the 512 slots, and decoding is total (30_encoding R82, R90 "every slot matches exactly
one row", R94). -/
def Obligations.EveryOpcodeSelectsExactlyOneRow : Prop :=
  ∀ op b1 b2 : Byte,
    (∃ row ∈ opcodeRows, row.cbPage = false ∧ row.selects op = true ∧
      (∀ q ∈ opcodeRows, q.cbPage = false → q.selects op = true → q = row) ∧
      (decodeBase op b1 b2).mnemonic = row.mnemonic ∧ instrLength op = row.length) ∧
    (∃ row ∈ opcodeRows, row.cbPage = true ∧ row.selects op = true ∧
      (∀ q ∈ opcodeRows, q.cbPage = true → q.selects op = true → q = row) ∧
      (decodeCb op).mnemonic = row.mnemonic ∧ row.length = 2) ∧
    ∀ rest : List Byte, ∃ i left, decode (op :: b1 :: b2 :: rest) = .ok (i, left)

/-- Words of the spec's rules, at least one for each family (R100, R101, R130, R137, R157, R180, R191, R194, R200, R217,
R221, R224, R231, R234, R240, R251, R256). -/
def Obligations.SpecWordsDecode : Prop :=
  Decodes [0x41] (.ldRR .b .c) ∧ Decodes [0x3E, 0x2A] (.ldRN8 .a 0x2A) ∧ Decodes [0x21, 0x00, 0xC0] (.ldRrN16 .hl 0xC000) ∧
  Decodes [0xD5] (.pushRr .de) ∧ Decodes [0xCE, 0x3B] (.adcAN8 0x3B) ∧ Decodes [0x27] .daa ∧
  Decodes [0x39] (.addHlRr .sp) ∧ Decodes [0xE8, 0xFE] (.addSpS8 0xFE) ∧ Decodes [0x07] .rlca ∧
  Decodes [0xCB, 0x37] (.swapR .a) ∧ Decodes [0xCB, 0x7C] (.bitBR 7 .h) ∧ Decodes [0xCB, 0xBE] (.resBHl 7) ∧
  Decodes [0xCA, 0x00, 0x02] (.jpCcN16 .z 0x0200) ∧ Decodes [0x20, 0xFD] (.jrCcS8 .nz 0xFD) ∧ Decodes [0xEF] (.rst 5) ∧
  Decodes [0x76] .halt ∧ Decodes [0xDD] (.illegal 0xDD)

/-- No instruction traps or stops (60_exceptions R330), and each returns the table's cost (30_encoding R92, 70_reset
R420). -/
def Obligations.EveryInstructionCompletesAtItsCost : Prop :=
  ∀ (i : Instr) (s : State), i.wf = true →
    ∃ row ∈ opcodeRows, row.mnemonic = i.resolve.mnemonic ∧ ∃ t, exec i s = .next t ∧
      t.cycles = s.cycles +
        (if (i.condition.map (cond s)).getD true = true then row.cycles else row.cyclesNotTaken)

/-- The step function's fetch and execute (60_exceptions R300, 20_memory R65, R66, 30_encoding R82). What is fetched with
the halt bug is in HaltBugFetchesTwice. -/
def Obligations.StepRunsTheDecodedInstruction : Prop :=
  ∀ s u : State,
    s.running = true → (hostBoundary s).running = true → u = serviceInterrupts (beginStep (hostBoundary s)) →
    u.halted = false →
    (∃ t, exec (fetchInstr u).1 (fetchInstr u).2 = .next t ∧ step s = .next (advanceDevices (promoteIme t))) ∧
    ∀ (bytes : List Byte) (i : Instr), u.haltBug = false → Decodes bytes i →
      (∀ (k : Nat) (v : Byte), bytes[k]? = some v → busRead u (u.pc + BitVec.ofNat 16 k) = v) →
      ∃ t, exec i { u with pc := u.pc + BitVec.ofNat 16 bytes.length } = .next t ∧
        step s = .next (advanceDevices (promoteIme t))

/-- The reset procedure (70_reset R400, R401). The echo aliases work RAM, so file bytes 0xE000 to
0xFDFF overwrite it (R401). The reset values of the model's own fields cycles, pixelOut, serialOut and hostInputs are
its choice (log 6, log 7, log 8). -/
def Obligations.PowerOnSetsTheState : Prop :=
  ∀ (cfg : Config) (cart : List Byte) (regs : ResetRegs) (t : State), t = powerOn cfg cart regs →
    (t.a = regs.a ∧ t.f = regs.f &&& 0xF0 ∧ t.b = regs.b ∧ t.c = regs.c ∧ t.d = regs.d ∧ t.e = regs.e ∧
      t.h = regs.h ∧ t.l = regs.l ∧ t.sp = regs.sp ∧ t.pc = (if cfg.bootRom.isSome then 0x0000 else 0x0100)) ∧
    (t.cfg = cfg ∧ t.ime = false ∧ t.halted = false ∧ t.haltBug = false ∧ t.imeDelay = 0 ∧ t.running = true ∧
      t.bootRomEnabled = cfg.bootRom.isSome ∧ t.ppuMode = .oamScan ∧ t.ppuCounter = 0 ∧ t.ly = 0 ∧ t.sprites = [] ∧
      t.divAcc = 0 ∧ t.timaAcc = 0 ∧ t.dmaRunning = false ∧ t.dmaCounter = 0 ∧ t.frameCycles = 0 ∧
      t.buttons = Buttons.released) ∧
    (t.cycles = 0 ∧ t.pixelOut = [] ∧ t.serialOut = [] ∧ t.hostInputs = []) ∧
    raw t 0xFF44 = 0 ∧
    raw t 0xFF41 = (cart.getD 0xFF41 0 &&& 0xF8) ||| 0x02 ||| (if cart.getD 0xFF45 0 = 0 then 0x04 else 0) ∧
    ∀ k : Word, phys k = k.toNat → k ≠ 0xFF44 → k ≠ 0xFF41 →
      raw t k =
        if 0xC000 ≤ k.toNat ∧ k.toNat ≤ 0xDDFF ∧ k.toNat + 0x2000 < cart.length then cart.getD (k.toNat + 0x2000) 0
        else cart.getD k.toNat 0

/-- "all invariants of 10_state.md rule R36 hold" after reset (70_reset R400). The reset state's arguments are the
model's choice (log 2, log 3). -/
def Obligations.PowerOnMeetsTheInvariant : Prop :=
  (∀ (cfg : Config) (cart : List Byte) (regs : ResetRegs), (powerOn cfg cart regs).Inv) ∧
  State.reset = powerOn Config.standard [] ResetRegs.withoutBootRom

/-- The invariant at State.reset (10_state R36, R37). -/
def Obligations.ResetMeetsTheInvariant : Prop :=
  State.reset.Inv

/-- "These hold at every instruction boundary" (10_state R36, items 1 to 5, with the bounds of R340, R351, R360, R254).
The canonical form is the model's own (log 4). -/
def Obligations.StepKeepsTheInvariant : Prop :=
  ∀ s t : State, s.Inv → step s = .next t → t.Inv

/-- No exception, no stop but running = 0 (60_exceptions R330, R332; 10_state R19). The fault for a stopped machine is
log 9. -/
def Obligations.RunningMachineAlwaysSteps : Prop :=
  (∀ s : State, s.running = true → ∃ t, step s = .next t) ∧
  (∀ (n : Nat) (s : State), s.running = true → (∀ i ∈ s.hostInputs, i.stop = false) → s.runs n) ∧
  (∀ s : State, s.running = false → step s = .fault .notRunning)

/-- Cycle conservation (60_exceptions R304, which derives it from R300 and 70_reset R420; 10_state R36 item 8). The
count in the field cycles is the model's form of c (log 6). -/
def Obligations.StepConservesCycles : Prop :=
  ∀ s t v : State, s.running = true → (hostBoundary s).running = true → step s = .next t →
    v = serviceInterrupts (beginStep (hostBoundary s)) →
    (v.cycles = 0 ∨ (v.cycles = 20 ∧ v.halted = false ∧ (hostBoundary s).ime = true ∧ pending (hostBoundary s) ≠ 0)) ∧
    ∃ (u : State) (k : Nat),
      ((v.halted = true ∧ k = 4 ∧ u = { v with cycles := v.cycles + 4 }) ∨
        (v.halted = false ∧ ∃ w, exec (fetchInstr v).1 (fetchInstr v).2 = .next w ∧ u = promoteIme w ∧
          ∃ row ∈ opcodeRows, row.mnemonic = (fetchInstr v).1.mnemonic ∧
            k = if ((fetchInstr v).1.condition.map (cond (fetchInstr v).2)).getD true = true then row.cycles
              else row.cyclesNotTaken)) ∧
      4 ≤ k ∧ k ≤ 24 ∧ k % 4 = 0 ∧ u.cycles = v.cycles + k ∧ 4 ≤ u.cycles ∧ u.cycles ≤ 44 ∧
      u.frameCycles = (hostBoundary s).frameCycles ∧
      t = { serialTap (dmaStep (timerStep (ppuStep u u.cycles) u.cycles) u.cycles) with
            frameCycles := u.frameCycles + u.cycles }

/-- A halted step (60_exceptions R302). -/
def Obligations.HaltedStepIdlesFourCycles : Prop :=
  ∀ s u : State, s.running = true → (hostBoundary s).running = true →
    u = serviceInterrupts (beginStep (hostBoundary s)) → u.halted = true →
    ∃ t, step s = .next t ∧ t = advanceDevices { u with cycles := 4 } ∧ u.SameCpu t ∧ t.cycles = 4

/-- The host between frames (60_exceptions R301, R370, 00_scope R2). The queue of actions is the model's form of the
host (log 8). -/
def Obligations.HostActsOnlyAtFrameBoundaries : Prop :=
  (∀ s t : State, atFrameBoundary s = false → step s = .next t →
    t.buttons = s.buttons ∧ t.running = s.running ∧ t.hostInputs = s.hostInputs) ∧
  (∀ (s : State) (i : HostInput) (rest : List HostInput), atFrameBoundary s = true → s.hostInputs = i :: rest →
    let t := hostBoundary s
    t = { s with mem := t.mem, buttons := i.buttons, running := s.running && !i.stop, frameCycles := 0
                 hostInputs := rest } ∧
    raw t 0xFF0F = (if newlyPressed s.buttons i.buttons then raw s 0xFF0F ||| 0x10 else raw s 0xFF0F) ∧
    ∀ k : Word, k ≠ 0xFF0F → raw t k = raw s k) ∧
  (∀ s : State, atFrameBoundary s = true → s.hostInputs = [] → hostBoundary s = { s with frameCycles := 0 })

/-- "boot_rom_enabled transitions only from true → false" (10_state R36 item 7, R22). -/
def Obligations.BootShadowOnlyTurnsOff : Prop :=
  ∀ s t : State, step s = .next t → (t.bootRomEnabled = true → s.bootRomEnabled = true) ∧ t.cfg = s.cfg

/-- The 8-bit loads into a register (40_load8 R100, R101, R102). -/
def Obligations.RegisterLoads : Prop :=
  ∀ (dst r : Reg8) (n : Byte) (s : State), ∀ x ∈ ([
      { bytes := [opByte (0x40 + dst.field * 8 + r.field)], instr := .ldRR dst r, operand := reg8 s r, cycles := 4 },
      { bytes := [opByte (0x06 + dst.field * 8), n], instr := .ldRN8 dst n, operand := n, cycles := 8 },
      { bytes := [opByte (0x46 + dst.field * 8)], instr := .ldRHl dst, operand := busRead s (hl s), cycles := 8 }] : List Form),
    Decodes x.bytes x.instr ∧ ∃ t, exec x.instr s = .next t ∧
      reg8 t dst = x.operand ∧ (∀ q, q ≠ dst → reg8 t q = reg8 s q) ∧ s.OnlyReg8 t x.cycles

/-- The accumulator loads (40_load8 R105, R106, R109, R111, R113). -/
def Obligations.AccumulatorLoads : Prop :=
  ∀ (n : Byte) (w : Word) (s : State), ∀ x ∈ ([
      { bytes := [0x0A], instr := .ldABc, address := word s.b s.c, cycles := 8 },
      { bytes := [0x1A], instr := .ldADe, address := word s.d s.e, cycles := 8 },
      { bytes := [0xFA, loByte w, hiByte w], instr := .ldAN16 w, address := w, cycles := 16 },
      { bytes := [0xF2], instr := .ldhAC, address := 0xFF00 + s.c.setWidth 16, cycles := 8 },
      { bytes := [0xF0, n], instr := .ldhAN8 n, address := 0xFF00 + n.setWidth 16, cycles := 12 }] : List Form),
    Decodes x.bytes x.instr ∧ ∃ t, exec x.instr s = .next t ∧
      t = { s with a := busRead s x.address, cycles := s.cycles + x.cycles }

/-- The one-byte stores (40_load8 R103, R104, R107, R108, R110, R112, R114); what the bus does with one is 20_memory
R52. -/
def Obligations.ByteStores : Prop :=
  ∀ (r : Reg8) (n : Byte) (w : Word) (s : State), ∀ x ∈ ([
      { bytes := [opByte (0x70 + r.field)], instr := .ldHlR r, address := hl s, operand := reg8 s r, cycles := 8 },
      { bytes := [0x36, n], instr := .ldHlN8 n, address := hl s, operand := n, cycles := 12 },
      { bytes := [0x02], instr := .ldBcA, address := word s.b s.c, operand := s.a, cycles := 8 },
      { bytes := [0x12], instr := .ldDeA, address := word s.d s.e, operand := s.a, cycles := 8 },
      { bytes := [0xEA, loByte w, hiByte w], instr := .ldN16A w, address := w, operand := s.a, cycles := 16 },
      { bytes := [0xE2], instr := .ldhCA, address := 0xFF00 + s.c.setWidth 16, operand := s.a, cycles := 8 },
      { bytes := [0xE0, n], instr := .ldhN8A n, address := 0xFF00 + n.setWidth 16, operand := s.a, cycles := 12 }] :
        List Form),
    Decodes x.bytes x.instr ∧ ∃ t, exec x.instr s = .next t ∧
      t = { busWrite s x.address x.operand with cycles := s.cycles + x.cycles } ∧ s.SameCpu t ∧
      (∀ k : Word, storeReaches x.address k = false → raw t k = raw s k) ∧
      (plainStore x.address = true → raw t x.address = x.operand ∧
        t = { s with mem := t.mem, cycles := s.cycles + x.cycles })

/-- The forms that step HL (40_load8 R115 to R118). -/
def Obligations.HlSteppingLoadsAndStores : Prop :=
  ∀ s : State,
    (∀ x ∈ ([{ bytes := [0x22], instr := .ldHlIncA, address := hl s + 1, cycles := 8 },
        { bytes := [0x32], instr := .ldHlDecA, address := hl s - 1, cycles := 8 }] : List Form),
      Decodes x.bytes x.instr ∧ ∃ t, exec x.instr s = .next t ∧ hl t = x.address ∧
        t = { busWrite s (hl s) s.a with h := t.h, l := t.l, cycles := s.cycles + x.cycles } ∧
        { s with h := t.h, l := t.l }.SameCpu t ∧
        (∀ k : Word, storeReaches (hl s) k = false → raw t k = raw s k) ∧
        (plainStore (hl s) = true → raw t (hl s) = s.a)) ∧
    (∀ x ∈ ([{ bytes := [0x2A], instr := .ldAHlInc, address := hl s + 1, cycles := 8 },
        { bytes := [0x3A], instr := .ldAHlDec, address := hl s - 1, cycles := 8 }] : List Form),
      Decodes x.bytes x.instr ∧ ∃ t, exec x.instr s = .next t ∧ hl t = x.address ∧
        t = { s with a := busRead s (hl s), h := t.h, l := t.l, cycles := s.cycles + x.cycles })

/-- The 16-bit loads (41_load16_stack R130, R132). -/
def Obligations.PairLoads : Prop :=
  (∀ (p : R16) (n : Word) (s : State), Decodes [opByte (0x01 + p.field * 16), loByte n, hiByte n] (.ldRrN16 p n) ∧
    ∃ t, exec (.ldRrN16 p n) s = .next t ∧ r16 t p = n ∧ (∀ q, q ≠ p → r16 t q = r16 s q) ∧
      t = { s with b := t.b, c := t.c, d := t.d, e := t.e, h := t.h, l := t.l, sp := t.sp, cycles := s.cycles + 12 }) ∧
  (∀ s : State, Decodes [0xF9] .ldSpHl ∧
    exec .ldSpHl s = .next { s with sp := word s.h s.l, cycles := s.cycles + 8 })

/-- LD (n16),SP (41_load16_stack R131). -/
def Obligations.StackPointerStore : Prop :=
  ∀ (n : Word) (s : State), Decodes [0x08, loByte n, hiByte n] (.ldN16Sp n) ∧ ∃ t, exec (.ldN16Sp n) s = .next t ∧
    t = { busWrite (busWrite s n (loByte s.sp)) (n + 1) (hiByte s.sp) with cycles := s.cycles + 20 } ∧ s.SameCpu t ∧
    (∀ k : Word, storeReaches n k = false → storeReaches (n + 1) k = false → raw t k = raw s k) ∧
    (plainStore n = true → plainStore (n + 1) = true →
      raw t n = loByte s.sp ∧ raw t (n + 1) = hiByte s.sp)

/-- PUSH (41_load16_stack R135, R137, R138). -/
def Obligations.PushStoresThePair : Prop :=
  (∀ p : R16S, p ≠ .af → Decodes [opByte (0xC5 + p.field * 16)] (.pushRr p)) ∧ Decodes [0xF5] .pushAf ∧
  ∀ (p : R16S) (i : Instr) (s : State), i = (if p = .af then .pushAf else .pushRr p) →
    ∃ t, exec i s = .next t ∧
      t = { busWrite (busWrite s (s.sp - 1) (hiByte (r16s s p))) (s.sp - 2) (loByte (r16s s p)) with
            sp := s.sp - 2, cycles := s.cycles + 16 } ∧
      { s with sp := s.sp - 2 }.SameCpu t ∧
      (∀ k : Word, storeReaches (s.sp - 1) k = false → storeReaches (s.sp - 2) k = false → raw t k = raw s k) ∧
      (plainStore (s.sp - 1) = true → plainStore (s.sp - 2) = true →
        raw t (s.sp - 1) = hiByte (r16s s p) ∧ raw t (s.sp - 2) = loByte (r16s s p))

/-- POP (41_load16_stack R136, R139, R140; 10_state R13). -/
def Obligations.PopLoadsThePair : Prop :=
  (∀ (p : R16S) (s : State), p ≠ .af → Decodes [opByte (0xC1 + p.field * 16)] (.popRr p) ∧
    ∃ t, exec (.popRr p) s = .next t ∧ r16s t p = word (busRead s (s.sp + 1)) (busRead s s.sp) ∧
      (∀ q, q ≠ p → r16s t q = r16s s q) ∧
      t = { s with b := t.b, c := t.c, d := t.d, e := t.e, h := t.h, l := t.l, sp := s.sp + 2
                   cycles := s.cycles + 12 }) ∧
  (∀ s : State, Decodes [0xF1] .popAf ∧ exec .popAf s = .next
    { s with a := busRead s (s.sp + 1), f := busRead s s.sp &&& 0xF0, sp := s.sp + 2, cycles := s.cycles + 12 })

/-- The corner case of 41_load16_stack R137: "`PUSH rr; POP rr` leaves `rr` unchanged ... and leaves SP unchanged". -/
def Obligations.PushThenPopRestores : Prop :=
  ∀ (p : R16S) (push pop : Instr) (s : State), push = (if p = .af then .pushAf else .pushRr p) →
    pop = (if p = .af then .popAf else .popRr p) → s.FlagsOk → s.dmaRunning = false →
    ramByte (s.sp - 1) = true → ramByte (s.sp - 2) = true →
    ∃ u t, exec push s = .next u ∧ exec pop u = .next t ∧ (∀ q, r16s t q = r16s s q) ∧ t.sp = s.sp ∧
      t.cycles = s.cycles + 28

/-- ADD and ADC (42_alu8 R150, R152 to R157). -/
def Obligations.AddAndAdc : Prop :=
  ∀ (adc : Bool) (r : Reg8) (n : Byte) (s : State) (cin : Nat), cin = (if adc && cFlag s then 1 else 0) →
    ∀ x ∈ ([
      { bytes := [opByte ((if adc then 0x88 else 0x80) + r.field)], instr := if adc then .adcAR r else .addAR r
        operand := reg8 s r, cycles := 4 },
      { bytes := [if adc then 0x8E else 0x86], instr := if adc then .adcAHl else .addAHl
        operand := busRead s (hl s), cycles := 8 },
      { bytes := [if adc then 0xCE else 0xC6, n], instr := if adc then .adcAN8 n else .addAN8 n
        operand := n, cycles := 8 }] : List Form),
    Decodes x.bytes x.instr ∧ ∃ t, exec x.instr s = .next t ∧
      t.a.toNat = (s.a.toNat + x.operand.toNat + cin) % 256 ∧
      t.HasFlags (t.a == 0) false (decide (0xF < s.a.toNat % 16 + x.operand.toNat % 16 + cin))
        (decide (0xFF < s.a.toNat + x.operand.toNat + cin)) ∧
      t = { s with a := t.a, f := t.f, cycles := s.cycles + x.cycles }

/-- SUB, SBC and CP (42_alu8 R151, R158 to R163, R173 to R175). Borrows compare on integers. -/
def Obligations.SubSbcAndCp : Prop :=
  ∀ (op : Fin 3) (r : Reg8) (n : Byte) (s : State) (cin : Nat), cin = (if op == 1 && cFlag s then 1 else 0) →
    ∀ x ∈ ([
      { bytes := [opByte (![0x90, 0x98, 0xB8] op + r.field)], instr := ![.subAR r, .sbcAR r, .cpAR r] op
        operand := reg8 s r, cycles := 4 },
      { bytes := [![0x96, 0x9E, 0xBE] op], instr := ![.subAHl, .sbcAHl, .cpAHl] op
        operand := busRead s (hl s), cycles := 8 },
      { bytes := [![0xD6, 0xDE, 0xFE] op, n], instr := ![.subAN8 n, .sbcAN8 n, .cpAN8 n] op
        operand := n, cycles := 8 }] : List Form),
    Decodes x.bytes x.instr ∧ ∃ (t : State) (result : Byte), exec x.instr s = .next t ∧
      (result.toNat : Int) = ((s.a.toNat : Int) - x.operand.toNat - cin) % 256 ∧
      t.a = (if op = 2 then s.a else result) ∧
      t.HasFlags (result == 0) true (decide (s.a.toNat % 16 < x.operand.toNat % 16 + cin))
        (decide (s.a.toNat < x.operand.toNat + cin)) ∧
      t = { s with a := t.a, f := t.f, cycles := s.cycles + x.cycles }

/-- AND, XOR and OR (42_alu8 R164 to R172). -/
def Obligations.LogicalOperations : Prop :=
  ∀ (op : Fin 3) (r : Reg8) (n : Byte) (s : State), ∀ x ∈ ([
      { bytes := [opByte (![0xA0, 0xA8, 0xB0] op + r.field)], instr := ![.andAR r, .xorAR r, .orAR r] op
        operand := reg8 s r, cycles := 4 },
      { bytes := [![0xA6, 0xAE, 0xB6] op], instr := ![.andAHl, .xorAHl, .orAHl] op
        operand := busRead s (hl s), cycles := 8 },
      { bytes := [![0xE6, 0xEE, 0xF6] op, n], instr := ![.andAN8 n, .xorAN8 n, .orAN8 n] op
        operand := n, cycles := 8 }] : List Form),
    Decodes x.bytes x.instr ∧ ∃ t, exec x.instr s = .next t ∧
      (∀ b, t.a.getLsbD b = ![s.a.getLsbD b && x.operand.getLsbD b, s.a.getLsbD b ^^ x.operand.getLsbD b,
        s.a.getLsbD b || x.operand.getLsbD b] op) ∧
      t.HasFlags (t.a == 0) false (op == 0) false ∧
      t = { s with a := t.a, f := t.f, cycles := s.cycles + x.cycles }

/-- INC and DEC on bytes (42_alu8 R176 to R179). -/
def Obligations.IncDecBytes : Prop :=
  ∀ (dec : Bool) (r : Reg8) (s : State),
    let result (v : Byte) : Byte := if dec then v - 1 else v + 1
    let half (v : Byte) : Bool := v.toNat % 16 == (if dec then 0 else 15)
    (Decodes [opByte ((if dec then 0x05 else 0x04) + r.field * 8)] (if dec then .decR r else .incR r) ∧
      ∃ t, exec (if dec then .decR r else .incR r) s = .next t ∧ reg8 t r = result (reg8 s r) ∧
        (∀ q, q ≠ r → reg8 t q = reg8 s q) ∧
        t.HasFlags (result (reg8 s r) == 0) dec (half (reg8 s r)) (cFlag s) ∧
        { s with f := t.f }.OnlyReg8 t 4) ∧
    (Decodes [if dec then 0x35 else 0x34] (if dec then .decHl else .incHl) ∧
      ∃ t v, v = busRead s (hl s) ∧ exec (if dec then .decHl else .incHl) s = .next t ∧
        t.HasFlags (result v == 0) dec (half v) (cFlag s) ∧
        t = { busWrite s (hl s) (result v) with f := t.f, cycles := s.cycles + 12 } ∧
        { s with f := t.f }.SameCpu t ∧
        (∀ k : Word, storeReaches (hl s) k = false → raw t k = raw s k) ∧
        (plainStore (hl s) = true → raw t (hl s) = result v))

/-- DAA (42_alu8 R180; 90_conflicts C1). -/
def Obligations.DaaAdjusts : Prop :=
  ∀ s : State, Decodes [0x27] .daa ∧
    let high : Bool := if nFlag s then cFlag s else cFlag s || decide (0x99 < s.a.toNat)
    let low : Bool := if nFlag s then hFlag s else hFlag s || decide (9 < s.a.toNat % 16)
    let offset : Int := (if high then 0x60 else 0) + (if low then 0x06 else 0)
    ∃ t, exec .daa s = .next t ∧
      (t.a.toNat : Int) = (if nFlag s then (s.a.toNat : Int) - offset else s.a.toNat + offset) % 256 ∧
      t.HasFlags (t.a == 0) (nFlag s) false (cFlag s || (!nFlag s && high)) ∧
      t = { s with a := t.a, f := t.f, cycles := s.cycles + 4 }

/-- What DAA is for: "decimal adjust the accumulator after a BCD addition or subtraction" (42_alu8 R180). -/
def Obligations.DaaMakesDecimalSums : Prop :=
  ∀ (x y : Nat) (r : Reg8) (s : State), x < 100 → y < 100 → s.a = BitVec.ofNat 8 (x / 10 * 16 + x % 10) →
    reg8 s r = BitVec.ofNat 8 (y / 10 * 16 + y % 10) →
    (∃ u t, exec (.addAR r) s = .next u ∧ exec .daa u = .next t ∧ cFlag t = decide (100 ≤ x + y) ∧
      t.a = BitVec.ofNat 8 ((x + y) % 100 / 10 * 16 + (x + y) % 10)) ∧
    (∃ u t, exec (.subAR r) s = .next u ∧ exec .daa u = .next t ∧ cFlag t = decide (x < y) ∧
      t.a = BitVec.ofNat 8 ((x + 100 - y) % 100 / 10 * 16 + (x + 100 - y) % 10))

/-- CPL, SCF and CCF (42_alu8 R181 to R183). -/
def Obligations.ComplementAndCarryFlags : Prop :=
  ∀ s : State,
    (Decodes [0x2F] .cpl ∧ ∃ t, exec .cpl s = .next t ∧ (∀ b, b < 8 → t.a.getLsbD b = !s.a.getLsbD b) ∧
      t.HasFlags (zFlag s) true true (cFlag s) ∧ t = { s with a := t.a, f := t.f, cycles := s.cycles + 4 }) ∧
    (Decodes [0x37] .scf ∧ ∃ t, exec .scf s = .next t ∧ t.HasFlags (zFlag s) false false true ∧
      t = { s with f := t.f, cycles := s.cycles + 4 }) ∧
    (Decodes [0x3F] .ccf ∧ ∃ t, exec .ccf s = .next t ∧ t.HasFlags (zFlag s) false false (!cFlag s) ∧
      t = { s with f := t.f, cycles := s.cycles + 4 })

/-- ADD HL,rr (43_alu16 R191; 90_conflicts C12). -/
def Obligations.AddHlPairs : Prop :=
  ∀ (p : R16) (s : State), Decodes [opByte (0x09 + p.field * 16)] (.addHlRr p) ∧
    ∃ t, exec (.addHlRr p) s = .next t ∧ (hl t).toNat = ((hl s).toNat + (r16 s p).toNat) % 65536 ∧
      t.HasFlags (zFlag s) false (decide (0x0FFF < (hl s).toNat % 0x1000 + (r16 s p).toNat % 0x1000))
        (decide (0xFFFF < (hl s).toNat + (r16 s p).toNat)) ∧
      t = { s with h := t.h, l := t.l, f := t.f, cycles := s.cycles + 8 }

/-- INC rr and DEC rr (43_alu16 R192, R193). -/
def Obligations.IncDecPairs : Prop :=
  ∀ (dec : Bool) (p : R16) (s : State),
    Decodes [opByte ((if dec then 0x0B else 0x03) + p.field * 16)] (if dec then .decRr p else .incRr p) ∧
    ∃ t, exec (if dec then .decRr p else .incRr p) s = .next t ∧
      ((r16 t p).toNat : Int) = (((r16 s p).toNat : Int) + (if dec then -1 else 1)) % 65536 ∧
      (∀ q, q ≠ p → r16 t q = r16 s q) ∧
      t = { s with b := t.b, c := t.c, d := t.d, e := t.e, h := t.h, l := t.l, sp := t.sp, cycles := s.cycles + 8 }

/-- ADD SP,s8 and LD HL,SP+s8 (43_alu16 R190, R194; 41_load16_stack R133). -/
def Obligations.StackPointerOffsets : Prop :=
  ∀ (e : Byte) (s : State),
    let half : Bool := decide (0xF < s.sp.toNat % 16 + e.toNat % 16)
    let carry : Bool := decide (0xFF < s.sp.toNat % 256 + e.toNat)
    (Decodes [0xE8, e] (.addSpS8 e) ∧ ∃ t, exec (.addSpS8 e) s = .next t ∧
      (t.sp.toNat : Int) = ((s.sp.toNat : Int) + e.toInt) % 65536 ∧ t.HasFlags false false half carry ∧
      t = { s with sp := t.sp, f := t.f, cycles := s.cycles + 16 }) ∧
    (Decodes [0xF8, e] (.ldHlSpS8 e) ∧ ∃ t, exec (.ldHlSpS8 e) s = .next t ∧
      ((hl t).toNat : Int) = ((s.sp.toNat : Int) + e.toInt) % 65536 ∧ t.HasFlags false false half carry ∧
      t = { s with h := t.h, l := t.l, f := t.f, cycles := s.cycles + 12 })

/-- The accumulator rotates (44_rotate_shift_bit R200 to R203, R204). -/
def Obligations.AccumulatorRotates : Prop :=
  ∀ (circular : Bool) (s : State),
    (Decodes [if circular then 0x07 else 0x17] (if circular then .rlca else .rla) ∧
      ∃ t, exec (if circular then .rlca else .rla) s = .next t ∧ (∀ b, b < 7 → t.a.getLsbD (b + 1) = s.a.getLsbD b) ∧
        t.a.getLsbD 0 = (if circular then s.a.getLsbD 7 else cFlag s) ∧ t.HasFlags false false false (s.a.getLsbD 7) ∧
        t = { s with a := t.a, f := t.f, cycles := s.cycles + 4 }) ∧
    (Decodes [if circular then 0x0F else 0x1F] (if circular then .rrca else .rra) ∧
      ∃ t, exec (if circular then .rrca else .rra) s = .next t ∧ (∀ b, b < 7 → t.a.getLsbD b = s.a.getLsbD (b + 1)) ∧
        t.a.getLsbD 7 = (if circular then s.a.getLsbD 0 else cFlag s) ∧ t.HasFlags false false false (s.a.getLsbD 0) ∧
        t = { s with a := t.a, f := t.f, cycles := s.cycles + 4 })

/-- The CB-page rotates and shifts on registers (44_rotate_shift_bit R204, R205 to R219). `op` is bits 5..3 of the
second byte (R87). -/
def Obligations.CbShiftsOnRegisters : Prop :=
  ∀ (op : Fin 8) (r : Reg8) (s : State),
    let carryOut (v : Byte) : Bool := ![v.getLsbD 7, v.getLsbD 0, v.getLsbD 7, v.getLsbD 0, v.getLsbD 7, v.getLsbD 0,
      false, v.getLsbD 0] op
    let bitOut (v : Byte) (b : Nat) : Bool := ![
      if b = 0 then v.getLsbD 7 else v.getLsbD (b - 1), if b = 7 then v.getLsbD 0 else v.getLsbD (b + 1),
      if b = 0 then cFlag s else v.getLsbD (b - 1), if b = 7 then cFlag s else v.getLsbD (b + 1),
      if b = 0 then false else v.getLsbD (b - 1), if b = 7 then v.getLsbD 7 else v.getLsbD (b + 1),
      v.getLsbD ((b + 4) % 8), if b = 7 then false else v.getLsbD (b + 1)] op
    let i : Instr := ![.rlcR r, .rrcR r, .rlR r, .rrR r, .slaR r, .sraR r, .swapR r, .srlR r] op
    Decodes [0xCB, opByte (op.val * 8 + r.field)] i ∧ ∃ t, exec i s = .next t ∧
      (∀ b, b < 8 → (reg8 t r).getLsbD b = bitOut (reg8 s r) b) ∧ (∀ q, q ≠ r → reg8 t q = reg8 s q) ∧
      t.HasFlags (reg8 t r == 0) false false (carryOut (reg8 s r)) ∧ { s with f := t.f }.OnlyReg8 t 8

/-- The CB-page rotates and shifts on (HL) (44_rotate_shift_bit R204, R206 to R220). -/
def Obligations.CbShiftsOnMemory : Prop :=
  ∀ (op : Fin 8) (s : State),
    let carryOut (v : Byte) : Bool := ![v.getLsbD 7, v.getLsbD 0, v.getLsbD 7, v.getLsbD 0, v.getLsbD 7, v.getLsbD 0,
      false, v.getLsbD 0] op
    let bitOut (v : Byte) (b : Nat) : Bool := ![
      if b = 0 then v.getLsbD 7 else v.getLsbD (b - 1), if b = 7 then v.getLsbD 0 else v.getLsbD (b + 1),
      if b = 0 then cFlag s else v.getLsbD (b - 1), if b = 7 then cFlag s else v.getLsbD (b + 1),
      if b = 0 then false else v.getLsbD (b - 1), if b = 7 then v.getLsbD 7 else v.getLsbD (b + 1),
      v.getLsbD ((b + 4) % 8), if b = 7 then false else v.getLsbD (b + 1)] op
    let i : Instr := ![.rlcHl, .rrcHl, .rlHl, .rrHl, .slaHl, .sraHl, .swapHl, .srlHl] op
    Decodes [0xCB, opByte (op.val * 8 + 6)] i ∧ ∃ (t : State) (v result : Byte), v = busRead s (hl s) ∧
      exec i s = .next t ∧ (∀ b, b < 8 → result.getLsbD b = bitOut v b) ∧
      t.HasFlags (result == 0) false false (carryOut v) ∧
      t = { busWrite s (hl s) result with f := t.f, cycles := s.cycles + 16 } ∧ { s with f := t.f }.SameCpu t ∧
      (∀ k : Word, storeReaches (hl s) k = false → raw t k = raw s k) ∧
      (plainStore (hl s) = true → raw t (hl s) = result)

/-- BIT (44_rotate_shift_bit R221, R222). -/
def Obligations.BitTests : Prop :=
  ∀ (b : Fin 8) (r : Reg8) (s : State), ∀ x ∈ ([
      { bytes := [0xCB, opByte (0x40 + b.val * 8 + r.field)], instr := .bitBR b r, operand := reg8 s r, cycles := 8 },
      { bytes := [0xCB, opByte (0x46 + b.val * 8)], instr := .bitBHl b, operand := busRead s (hl s), cycles := 12 }] :
        List Form),
    Decodes x.bytes x.instr ∧ ∃ t, exec x.instr s = .next t ∧
      t.HasFlags (!x.operand.getLsbD b.val) false true (cFlag s) ∧
      t = { s with f := t.f, cycles := s.cycles + x.cycles }

/-- RES and SET (44_rotate_shift_bit R223 to R226). -/
def Obligations.BitResetAndSet : Prop :=
  ∀ (set : Bool) (b : Fin 8) (r : Reg8) (s : State),
    (Decodes [0xCB, opByte ((if set then 0xC0 else 0x80) + b.val * 8 + r.field)]
        (if set then .setBR b r else .resBR b r) ∧
      ∃ t, exec (if set then .setBR b r else .resBR b r) s = .next t ∧
        (∀ k, k < 8 → (reg8 t r).getLsbD k = if k = b.val then set else (reg8 s r).getLsbD k) ∧
        (∀ q, q ≠ r → reg8 t q = reg8 s q) ∧ s.OnlyReg8 t 8) ∧
    (Decodes [0xCB, opByte ((if set then 0xC6 else 0x86) + b.val * 8)] (if set then .setBHl b else .resBHl b) ∧
      ∃ (t : State) (result : Byte), exec (if set then .setBHl b else .resBHl b) s = .next t ∧
        (∀ k, k < 8 → result.getLsbD k = if k = b.val then set else (busRead s (hl s)).getLsbD k) ∧
        t = { busWrite s (hl s) result with cycles := s.cycles + 16 } ∧ s.SameCpu t ∧
        (∀ k : Word, storeReaches (hl s) k = false → raw t k = raw s k) ∧
        (plainStore (hl s) = true → raw t (hl s) = result))

/-- Jumps (45_control_flow R230 to R234; conditions, 30_encoding R85). The state's PC is past the instruction (R15). -/
def Obligations.Jumps : Prop :=
  ∀ (cc : Cond) (n : Word) (e : Byte) (s : State),
    let holds : Bool := match cc with
      | .nz => !zFlag s | .z => zFlag s | .nc => !cFlag s | .c => cFlag s
    let relative : Word := BitVec.ofInt 16 ((s.pc.toNat : Int) + e.toInt)
    (Decodes [0xC3, loByte n, hiByte n] (.jpN16 n) ∧
      exec (.jpN16 n) s = .next { s with pc := n, cycles := s.cycles + 16 }) ∧
    (Decodes [0xE9] .jpHl ∧ exec .jpHl s = .next { s with pc := word s.h s.l, cycles := s.cycles + 4 }) ∧
    (Decodes [0x18, e] (.jrS8 e) ∧ exec (.jrS8 e) s = .next { s with pc := relative, cycles := s.cycles + 12 }) ∧
    (Decodes [opByte (0xC2 + cc.field * 8), loByte n, hiByte n] (.jpCcN16 cc n) ∧ exec (.jpCcN16 cc n) s = .next
      (if holds then { s with pc := n, cycles := s.cycles + 16 } else { s with cycles := s.cycles + 12 })) ∧
    (Decodes [opByte (0x20 + cc.field * 8), e] (.jrCcS8 cc e) ∧ exec (.jrCcS8 cc e) s = .next
      (if holds then { s with pc := relative, cycles := s.cycles + 12 } else { s with cycles := s.cycles + 8 }))

/-- Calls and RST (45_control_flow R235, R236, R240). -/
def Obligations.CallsAndRst : Prop :=
  ∀ (cc : Cond) (n : Word) (k : Fin 8) (s : State),
    let holds : Bool := match cc with
      | .nz => !zFlag s | .z => zFlag s | .nc => !cFlag s | .c => cFlag s
    Decodes [0xCD, loByte n, hiByte n] (.callN16 n) ∧
    Decodes [opByte (0xC4 + cc.field * 8), loByte n, hiByte n] (.callCcN16 cc n) ∧
    Decodes [opByte (0xC7 + k.val * 8)] (.rst k) ∧
    (holds = false → exec (.callCcN16 cc n) s = .next { s with cycles := s.cycles + 12 }) ∧
    ∀ x ∈ ([{ bytes := [], instr := .callN16 n, address := n, cycles := 24 },
        { bytes := [], instr := if holds then .callCcN16 cc n else .callN16 n, address := n, cycles := 24 },
        { bytes := [], instr := .rst k, address := BitVec.ofNat 16 (8 * k.val), cycles := 16 }] : List Form),
      ∃ t, exec x.instr s = .next t ∧
        t = { busWrite (busWrite s (s.sp - 1) (hiByte s.pc)) (s.sp - 2) (loByte s.pc) with
              sp := s.sp - 2, pc := x.address, cycles := s.cycles + x.cycles } ∧
        { s with sp := s.sp - 2, pc := x.address }.SameCpu t ∧
        (∀ a : Word, storeReaches (s.sp - 1) a = false → storeReaches (s.sp - 2) a = false → raw t a = raw s a) ∧
        (plainStore (s.sp - 1) = true → plainStore (s.sp - 2) = true →
          raw t (s.sp - 1) = hiByte s.pc ∧ raw t (s.sp - 2) = loByte s.pc)

/-- Returns (45_control_flow R237 to R239). -/
def Obligations.Returns : Prop :=
  ∀ (cc : Cond) (s : State),
    let holds : Bool := match cc with
      | .nz => !zFlag s | .z => zFlag s | .nc => !cFlag s | .c => cFlag s
    let target : Word := word (busRead s (s.sp + 1)) (busRead s s.sp)
    (Decodes [0xC9] .ret ∧ exec .ret s = .next { s with pc := target, sp := s.sp + 2, cycles := s.cycles + 16 }) ∧
    (Decodes [opByte (0xC0 + cc.field * 8)] (.retCc cc) ∧ exec (.retCc cc) s = .next
      (if holds then { s with pc := target, sp := s.sp + 2, cycles := s.cycles + 20 }
       else { s with cycles := s.cycles + 8 })) ∧
    (Decodes [0xD9] .reti ∧ exec .reti s = .next
      { s with pc := target, sp := s.sp + 2, ime := true, imeDelay := 0, cycles := s.cycles + 16 })

/-- The three cases of HALT (46_system R251). -/
def Obligations.HaltHasThreeCases : Prop :=
  Decodes [0x76] .halt ∧ ∀ s : State,
    (s.ime = true → exec .halt s = .next { s with halted := true, cycles := s.cycles + 4 }) ∧
    (s.ime = false → (∃ i, i < 5 ∧ (raw s 0xFFFF).getLsbD i = true ∧ (raw s 0xFF0F).getLsbD i = true) →
      exec .halt s = .next { s with haltBug := true, cycles := s.cycles + 4 }) ∧
    (s.ime = false → (∀ i, i < 5 → (raw s 0xFFFF).getLsbD i = true → (raw s 0xFF0F).getLsbD i = false) →
      exec .halt s = .next { s with halted := true, cycles := s.cycles + 4 })

/-- STOP (46_system R252). -/
def Obligations.StopResetsDivAndHalts : Prop :=
  ∀ (pad : Byte) (s : State), Decodes [0x10, pad] (.stop pad) ∧ ∃ t, exec (.stop pad) s = .next t ∧
    t = { s with mem := t.mem, divAcc := 0, timaAcc := 0, halted := true, cycles := s.cycles + 4 } ∧
    raw t 0xFF04 = 0 ∧ ∀ k : Word, k ≠ 0xFF04 → raw t k = raw s k

/-- DI and EI in both variants (46_system R253, R254; the countdown, 60_exceptions R300). -/
def Obligations.InterruptMasterEnable : Prop :=
  Decodes [0xF3] .di ∧ Decodes [0xFB] .ei ∧ ∀ s : State,
    exec .di s = .next { s with ime := false, imeDelay := 0, cycles := s.cycles + 4 } ∧
    (s.cfg.eiDelay = false → exec .ei s = .next { s with ime := true, cycles := s.cycles + 4 }) ∧
    (s.cfg.eiDelay = true → s.ime = false → s.imeDelay = 0 →
      exec .ei s = .next { s with imeDelay := 2, cycles := s.cycles + 4 }) ∧
    (s.cfg.eiDelay = true → (s.ime = true ∨ s.imeDelay ≠ 0) → exec .ei s = .next { s with cycles := s.cycles + 4 }) ∧
    (∀ n, s.cfg.eiDelay = true → s.imeDelay = n + 1 →
      promoteIme s = { s with imeDelay := n, ime := s.ime || n == 0 }) ∧
    (s.cfg.eiDelay = false ∨ s.imeDelay = 0 → promoteIme s = s)

/-- NOP, the illegal opcodes and the CB prefix (46_system R250, R255, R256). The constructor prefixCb, and that it executes as
the CB-page instruction, are the model's choice (log 11). -/
def Obligations.NopIllegalAndPrefix : Prop :=
  (∀ s : State, Decodes [0x00] .nop ∧ exec .nop s = .next { s with cycles := s.cycles + 4 }) ∧
  (∀ (op : Byte) (s : State),
    op ∈ ([0xD3, 0xDB, 0xDD, 0xE3, 0xE4, 0xEB, 0xEC, 0xED, 0xF4, 0xFC, 0xFD] : List Byte) →
    Decodes [op] (.illegal op) ∧ exec (.illegal op) s = .next { s with cycles := s.cycles + 4 }) ∧
  (∀ (op2 : Byte) (s : State), Decodes [0xCB, op2] (decodeCb op2) ∧ exec (.prefixCb op2) s = exec (decodeCb op2) s ∧
    ∃ t, exec (decodeCb op2) s = .next t ∧ ∃ k, (k = 8 ∨ k = 12 ∨ k = 16) ∧ t.cycles = s.cycles + k)

/-- MemRead (20_memory R45 to R50); the joypad read is R51. -/
def Obligations.BusReads : Prop :=
  ∀ (s : State) (a : Word), s.BootOk →
    busRead s a =
      if s.dmaRunning = true ∧ (a.toNat < 0xFF80 ∨ 0xFFFE < a.toNat) then 0xFF
      else if s.cfg.testLogMode = true ∧ a = 0xFF44 then 0x90
      else if (raw s 0xFF40).getLsbD 7 = true ∧ s.ppuMode = .drawing ∧ 0x8000 ≤ a.toNat ∧ a.toNat ≤ 0x9FFF then 0xFF
      else if (raw s 0xFF40).getLsbD 7 = true ∧ (s.ppuMode = .oamScan ∨ s.ppuMode = .drawing) ∧ 0xFE00 ≤ a.toNat ∧
        a.toNat ≤ 0xFE9F then 0xFF
      else if s.bootRomEnabled = true ∧ a.toNat < 0x0100 then
        ((s.cfg.bootRom.map fun rom => rom.toList.getD a.toNat 0).getD 0)
      else if a = 0xFF00 then joypRead s
      else raw s a

/-- MemWrite (20_memory R52 to R58); the DMA register is R56, R350. -/
def Obligations.BusWrites : Prop :=
  ∀ (s t : State) (a : Word) (v : Byte), t = busWrite s a v →
    let lcd : Bool := (raw s 0xFF40).getLsbD 7
    let closed : Prop :=
      (lcd = true ∧ s.ppuMode = .drawing ∧ 0x8000 ≤ a.toNat ∧ a.toNat ≤ 0x9FFF) ∨
      (lcd = true ∧ (s.ppuMode = .oamScan ∨ s.ppuMode = .drawing) ∧ 0xFE00 ≤ a.toNat ∧ a.toNat ≤ 0xFE9F)
    (closed ∨ a.toNat ≤ 0x7FFF ∨ a = 0xFF44 → t = s) ∧
    (a = 0xFF50 → t = { s with mem := t.mem, bootRomEnabled := false } ∧ raw t a = v ∧
      ∀ k : Word, k ≠ a → raw t k = raw s k) ∧
    (a = 0xFF04 → t = { s with mem := t.mem, divAcc := 0, timaAcc := 0 } ∧ raw t a = 0 ∧
      ∀ k : Word, k ≠ a → raw t k = raw s k) ∧
    (a = 0xFF41 → t = { s with mem := t.mem } ∧
      (∀ b, b < 8 → (raw t a).getLsbD b = if b < 3 then (raw s a).getLsbD b else v.getLsbD b) ∧
      ∀ k : Word, k ≠ a → raw t k = raw s k) ∧
    (a = 0xFF45 → t = { s with mem := t.mem } ∧ raw t a = v ∧
      (∀ b, b < 8 → (raw t 0xFF41).getLsbD b = if b = 2 then s.ly == v.toNat else (raw s 0xFF41).getLsbD b) ∧
      ∀ k : Word, k ≠ a → k ≠ 0xFF41 → raw t k = raw s k) ∧
    (¬closed → 0x8000 ≤ a.toNat → a ≠ 0xFF50 → a ≠ 0xFF46 → a ≠ 0xFF04 → a ≠ 0xFF44 → a ≠ 0xFF41 → a ≠ 0xFF45 →
      t = { s with mem := t.mem } ∧ raw t a = v ∧ ∀ k : Word, phys k ≠ phys a → raw t k = raw s k)

/-- The DMA store (20_memory R56, 60_exceptions R350, with R46). -/
def Obligations.DmaStoreCopiesAndLocks : Prop :=
  ∀ (s t : State) (v : Byte), t = busWrite s 0xFF46 v →
    t = { s with mem := t.mem, dmaRunning := true, dmaCounter := 0 } ∧ raw t 0xFF46 = v ∧
    (∀ i, i < 160 → raw t (BitVec.ofNat 16 (0xFE00 + i)) = raw (rawWrite s 0xFF46 v) (BitVec.ofNat 16 (v.toNat * 256 + i))) ∧
    (∀ k : Word, k ≠ 0xFF46 → (k.toNat < 0xFE00 ∨ 0xFE9F < k.toNat) → raw t k = raw s k) ∧
    ∀ a : Word, a.toNat < 0xFF80 ∨ 0xFFFE < a.toNat → busRead t a = 0xFF

/-- The joypad read (20_memory R51). The assignment of bits is the spec's general-knowledge passage G14 (D25, D40; log
18). -/
def Obligations.JoypadRead : Prop :=
  ∀ s : State, s.dmaRunning = false →
    let select : Byte := raw s 0xFF00
    let line (direction action : Bool) : Bool :=
      !((!select.getLsbD 4 && direction) || (!select.getLsbD 5 && action))
    (∀ b, 4 ≤ b → b < 8 → (busRead s 0xFF00).getLsbD b = select.getLsbD b) ∧
    (busRead s 0xFF00).getLsbD 0 = line s.buttons.right s.buttons.a ∧
    (busRead s 0xFF00).getLsbD 1 = line s.buttons.left s.buttons.b ∧
    (busRead s 0xFF00).getLsbD 2 = line s.buttons.up s.buttons.select ∧
    (busRead s 0xFF00).getLsbD 3 = line s.buttons.down s.buttons.start

/-- Interrupt entry (60_exceptions R313, R315, R316). -/
def Obligations.InterruptEntry : Prop :=
  ∀ s t : State, s.ime = true → pending s ≠ 0 → t = serviceInterrupts s →
    let u : State := busWrite (busWrite s (s.sp - 1) (hiByte s.pc)) (s.sp - 2) (loByte s.pc)
    ∃ i, i < 5 ∧ (pending s).getLsbD i = true ∧ (∀ j, j < i → (pending s).getLsbD j = false) ∧
      t = { u with mem := t.mem, ime := false, halted := false, imeDelay := if s.cfg.eiDelay then 0 else s.imeDelay
                   sp := s.sp - 2, pc := BitVec.ofNat 16 (0x0040 + 8 * i), cycles := s.cycles + 20 } ∧
      (∀ b, b < 8 → (raw t 0xFF0F).getLsbD b = ((raw u 0xFF0F).getLsbD b && decide (b ≠ i))) ∧
      (∀ k : Word, k ≠ 0xFF0F → raw t k = raw u k) ∧
      (∀ k : Word, k ≠ 0xFF0F → storeReaches (s.sp - 1) k = false → storeReaches (s.sp - 2) k = false →
        raw t k = raw s k) ∧
      t.a = s.a ∧ t.f = s.f ∧ t.b = s.b ∧ t.c = s.c ∧ t.d = s.d ∧ t.e = s.e ∧ t.h = s.h ∧ t.l = s.l ∧
      t.haltBug = s.haltBug ∧
      (ramByte (s.sp - 1) = true → ramByte (s.sp - 2) = true →
        raw t (s.sp - 1) = hiByte s.pc ∧ raw t (s.sp - 2) = loByte s.pc)

/-- pending and the wake-up (60_exceptions R312, R314). -/
def Obligations.ServiceWithoutEntry : Prop :=
  ∀ s : State,
    (∀ i, (pending s).getLsbD i = (decide (i < 5) && (raw s 0xFFFF).getLsbD i && (raw s 0xFF0F).getLsbD i)) ∧
    (pending s = 0 → serviceInterrupts s = s) ∧
    (pending s ≠ 0 → s.ime = false → serviceInterrupts s = { s with halted := false })

/-- fetch8 and the halt bug (20_memory R65; 46_system R251 "Halt bug, effect"; 10_state R36 item 6). -/
def Obligations.HaltBugFetchesTwice : Prop :=
  ∀ s : State,
    (s.haltBug = true → fetchInstr s =
      if instrLength (busRead s s.pc) = 1 then (decodeBytes (busRead s s.pc) 0 0, { s with haltBug := false })
      else if instrLength (busRead s s.pc) = 2 then
        (decodeBytes (busRead s s.pc) (busRead s s.pc) 0, { s with haltBug := false, pc := s.pc + 1 })
      else (decodeBytes (busRead s s.pc) (busRead s s.pc) (busRead s (s.pc + 1)),
        { s with haltBug := false, pc := s.pc + 2 })) ∧
    (s.haltBug = false →
      (fetchInstr s).2 = { s with pc := s.pc + BitVec.ofNat 16 (instrLength (busRead s s.pc)) }) ∧
    (fetchInstr s).2.haltBug = false

/-- timer_step (60_exceptions R340 to R343). -/
def Obligations.TimerCountsDivAndTima : Prop :=
  ∀ (s t : State) (c n : Nat) (tima : Nat → Byte), t = timerStep s c →
    n = (if (raw s 0xFF07).getLsbD 2 then
      (s.timaAcc + c) / ![1024, 16, 64, 256] ((raw s 0xFF07).extractLsb' 0 2).toFin else 0) →
    tima 0 = raw s 0xFF05 → (∀ k, tima (k + 1) = if tima k = 0xFF then raw s 0xFF06 else tima k + 1) →
    t = { s with mem := t.mem, divAcc := (s.divAcc + c) % 256
                 timaAcc := if (raw s 0xFF07).getLsbD 2 then
                   (s.timaAcc + c) % ![1024, 16, 64, 256] ((raw s 0xFF07).extractLsb' 0 2).toFin else s.timaAcc } ∧
    (raw t 0xFF04).toNat = ((raw s 0xFF04).toNat + (s.divAcc + c) / 256) % 256 ∧
    raw t 0xFF05 = tima n ∧
    ((∃ k, k < n ∧ tima k = 0xFF) → raw t 0xFF0F = raw s 0xFF0F ||| 0x04) ∧
    ((∀ k, k < n → tima k ≠ 0xFF) → raw t 0xFF0F = raw s 0xFF0F) ∧
    ∀ k : Word, k ≠ 0xFF04 → k ≠ 0xFF05 → k ≠ 0xFF0F → raw t k = raw s k

/-- dma_step (60_exceptions R351). -/
def Obligations.DmaLockoutEndsAt640 : Prop :=
  ∀ (s : State) (c : Nat),
    (s.dmaRunning = true → s.dmaCounter + c < 640 → dmaStep s c = { s with dmaCounter := s.dmaCounter + c }) ∧
    (s.dmaRunning = true → 640 ≤ s.dmaCounter + c →
      dmaStep s c = { s with dmaCounter := 640, dmaRunning := false }) ∧
    (s.dmaRunning = false → dmaStep s c = s)

/-- serial_tap (60_exceptions R303). The list of emitted bytes is the model's form of the output (log 7). -/
def Obligations.SerialTapEmitsAndClears : Prop :=
  ∀ s t : State, t = serialTap s →
    ((raw s 0xFF01).toNat < 0x80 → raw s 0xFF02 = 0x81 →
      t = { s with mem := t.mem, serialOut := s.serialOut ++ [raw s 0xFF01] } ∧ raw t 0xFF02 = 0 ∧
      ∀ k : Word, k ≠ 0xFF02 → raw t k = raw s k) ∧
    (0x80 ≤ (raw s 0xFF01).toNat ∨ raw s 0xFF02 ≠ 0x81 → t = s)

/-- ppu_step (60_exceptions R360 to R363). What the scan and the scanline are is in OamScanTakesTheFirstTen and
ScanlineEmitsItsPixels. One transition per step is the rule's remark ("at most one branch fires per step"). -/
def Obligations.PpuTransitions : Prop :=
  ∀ (s t : State) (c : Nat), s.Inv → c ≤ 44 → t = ppuStep s c →
    (s.ppuCounter + c < s.ppuMode.duration → t = { s with ppuCounter := s.ppuCounter + c }) ∧
    (s.ppuMode.duration ≤ s.ppuCounter + c →
      let stat : Byte := raw s 0xFF41
      let line : Nat := match s.ppuMode with
        | .oamScan | .drawing => s.ly
        | .hblank => s.ly + 1
        | .vblank => if s.ly = 153 then 0 else s.ly + 1
      let mode : PpuMode := match s.ppuMode with
        | .oamScan => .drawing
        | .drawing => .hblank
        | .hblank => if line = 144 then .vblank else .oamScan
        | .vblank => if line = 0 then .oamScan else .vblank
      let coincides : Bool := decide (line = (raw s 0xFF45).toNat)
      let statRequest : Bool :=
        (decide (line ≠ s.ly) && coincides && stat.getLsbD 6) || (decide (mode ≠ s.ppuMode) && match mode with
          | .drawing => false
          | .hblank => stat.getLsbD 3
          | .vblank => stat.getLsbD 4
          | .oamScan => stat.getLsbD 5)
      let vblankRequest : Bool := decide (mode ≠ s.ppuMode ∧ mode = .vblank)
      t = { s with mem := t.mem, ppuCounter := s.ppuCounter + c - s.ppuMode.duration, ppuMode := mode, ly := line
                   sprites := if s.ppuMode = .oamScan then (oamScan s).sprites else s.sprites
                   pixelOut := if s.ppuMode = .drawing then (renderScanline s).pixelOut else s.pixelOut } ∧
      (raw t 0xFF44).toNat = line ∧
      (∀ b, b < 8 → (raw t 0xFF41).getLsbD b =
        if b < 2 then mode.code.getLsbD b else if b = 2 then coincides else stat.getLsbD b) ∧
      (∀ b, b < 8 → (raw t 0xFF0F).getLsbD b =
        ((raw s 0xFF0F).getLsbD b || (decide (b = 0) && vblankRequest) || (decide (b = 1) && statRequest))) ∧
      (∀ k : Word, k ≠ 0xFF41 → k ≠ 0xFF44 → k ≠ 0xFF0F → raw t k = raw s k))

/-- oam_scan (60_exceptions R364). -/
def Obligations.OamScanTakesTheFirstTen : Prop :=
  ∀ s t : State, t = oamScan s →
    let height : Nat := if (raw s 0xFF40).getLsbD 2 then 16 else 8
    let at' (k j : Nat) : Byte := raw s (BitVec.ofNat 16 (0xFE00 + 4 * k + j))
    let covers (k : Nat) : Bool := decide ((at' k 0).toNat ≤ s.ly + 16 ∧ s.ly + 16 < (at' k 0).toNat + height)
    t = { s with sprites := t.sprites } ∧ t.sprites.length ≤ 10 ∧
    (∀ u : Sprite, u ∈ t.sprites ↔ ∃ k, k < 40 ∧ covers k = true ∧ ((List.range k).filter covers).length < 10 ∧
      u = { y := at' k 0, x := at' k 1, tile := at' k 2, attrs := at' k 3, index := k }) ∧
    t.sprites.Pairwise (fun u v => u.x.toNat < v.x.toNat ∨ (u.x = v.x ∧ u.index < v.index))

/-- render_scanline (60_exceptions R365 to R368). -/
def Obligations.ScanlineEmitsItsPixels : Prop :=
  ∀ (s t : State) (x : Nat), t = renderScanline s → x < 160 →
    let lcdc : Byte := raw s 0xFF40
    let rawI (a : Nat) : Byte := raw s (BitVec.ofNat 16 a)
    let pixel (map col row : Nat) : BitVec 2 :=
      let id : Byte := rawI (map + row / 8 * 32 + col / 8)
      let pattern : Nat := if lcdc.getLsbD 4 then 0x8000 + id.toNat * 16
        else if id.getLsbD 7 then 0x8000 + id.toNat * 16 else 0x9000 + id.toNat * 16
      BitVec.ofBool ((rawI (pattern + row % 8 * 2 + 1)).getLsbD (7 - col % 8)) ++
        BitVec.ofBool ((rawI (pattern + row % 8 * 2)).getLsbD (7 - col % 8))
    let window : Bool :=
      lcdc.getLsbD 5 && decide ((raw s 0xFF4A).toNat ≤ s.ly) && decide ((raw s 0xFF4B).toNat ≤ x + 7)
    let under : BitVec 2 :=
      if window then pixel (if lcdc.getLsbD 6 then 0x9C00 else 0x9800) (x + 7 - (raw s 0xFF4B).toNat)
        (s.ly - (raw s 0xFF4A).toNat)
      else pixel (if lcdc.getLsbD 3 then 0x9C00 else 0x9800) (((raw s 0xFF43).toNat + x) % 256)
        (((raw s 0xFF42).toNat + s.ly) % 256)
    let sprite : Option (BitVec 2) :=
      if lcdc.getLsbD 1 then s.sprites.findSome? (spriteShade s x under) else none
    t = { s with pixelOut := t.pixelOut } ∧ t.pixelOut.length = s.pixelOut.length + 160 ∧
    (∀ j, j < s.pixelOut.length → t.pixelOut[j]? = s.pixelOut[j]?) ∧
    t.pixelOut[s.pixelOut.length + x]? = some
      { x := x, y := s.ly, shade := sprite.getD ((raw s 0xFF47 >>> (under.toNat * 2)).setWidth 2) }

/-- sprite_pixel for one sprite of either height, in both variants of D24, for every row (60_exceptions R367). -/
def Obligations.SpriteShadesFollowAttributes : Prop :=
  ∀ (s : State) (x : Nat) (under : BitVec 2) (sp : Sprite),
    let covers : Bool := decide (sp.x.toNat ≤ x + 8 ∧ x < sp.x.toNat)
    let tall : Bool := (raw s 0xFF40).getLsbD 2
    let row : Int := (s.ly : Int) + 16 - sp.y.toNat
    let tile : Nat := if tall then sp.tile.toNat / 2 * 2 else sp.tile.toNat
    let turned : Int :=
      if sp.attrs.getLsbD 6 = false then row
      else if tall = false then 7 - row
      else if s.cfg.sprite16YFlipSwapsTiles then 15 - row
      else if row < 8 then 7 - row else 23 - row
    let column : Nat := if sp.attrs.getLsbD 5 then x + 8 - sp.x.toNat else sp.x.toNat - 1 - x
    let pattern : Int := 0x8000 + tile * 16 + turned * 2
    let number : BitVec 2 := BitVec.ofBool ((raw s (BitVec.ofInt 16 (pattern + 1))).getLsbD column) ++
      BitVec.ofBool ((raw s (BitVec.ofInt 16 pattern)).getLsbD column)
    let palette : Byte := raw s (if sp.attrs.getLsbD 4 then 0xFF49 else 0xFF48)
    spriteShade s x under sp =
      if covers = false ∨ number = 0 ∨ (sp.attrs.getLsbD 7 = true ∧ under ≠ 0) then none
      else some ((palette >>> (number.toNat * 2)).setWidth 2)
end

