-- ==== Sys2Proof/Laws/Memory.lean ====
section
/-! SUPPORT. Storage: a read after a write, the canonical form is kept by every operation and decides equality, and what
the DMA copy leaves (20_memory R42, R44, R67; 60 R350). -/

namespace Sys2Proof.Machine

/-! ## Reading -/

@[simp] theorem Memory.read_nil (a : Nat) : Memory.read [] a = unlisted a := rfl

theorem Memory.read_cons (x : Host.Cell) (m : Memory) (a : Nat) :
    Memory.read (x :: m) a = if x.1 = a then x.2 else m.read a := rfl

theorem Memory.read_erase_self (m : Memory) (a : Nat) : (m.erase a).read a = unlisted a := by
  induction m with
  | nil => rfl
  | cons x m ih =>
    by_cases h : x.1 = a
    · simpa [Memory.erase, List.filter_cons, h] using ih
    · simpa [Memory.erase, List.filter_cons, h, Memory.read_cons] using ih

theorem Memory.read_erase_ne (m : Memory) {a b : Nat} (h : b ≠ a) : (m.erase a).read b = m.read b := by
  induction m with
  | nil => rfl
  | cons x m ih =>
    by_cases hx : x.1 = a
    · simpa [Memory.erase, List.filter_cons, hx, Memory.read_cons, Ne.symm h] using ih
    · simp only [Memory.erase] at ih
      simp [Memory.erase, hx, Memory.read_cons, ih]

theorem Memory.read_insert_self (m : Memory) (a : Nat) (v : Byte) (h : ∀ x ∈ m, x.1 ≠ a) :
    (m.insert a v).read a = v := by
  induction m with
  | nil => simp [Memory.insert, Memory.read_cons]
  | cons x m ih =>
    have hx := h x (by simp)
    have hm := ih fun y hy => h y (by simp [hy])
    by_cases hlt : a < x.1 <;> simp [Memory.insert, Memory.read_cons, hlt, hx, hm]

theorem Memory.read_insert_ne (m : Memory) {a b : Nat} (v : Byte) (h : b ≠ a) :
    (m.insert a v).read b = m.read b := by
  induction m with
  | nil => simp [Memory.insert, Memory.read_cons, Ne.symm h]
  | cons x m ih => by_cases hlt : a < x.1 <;> simp [Memory.insert, Memory.read_cons, hlt, ih, Ne.symm h]

theorem Memory.fst_ne_of_mem_erase {m : Memory} {a : Nat} {x : Host.Cell} (h : x ∈ m.erase a) : x.1 ≠ a := by
  simpa using (List.mem_filter.mp h).2

/-- A byte reads as the value last stored there. -/
@[simp] theorem Memory.read_write_self (m : Memory) (a : Nat) (v : Byte) : (m.write a v).read a = v := by
  unfold Memory.write
  split
  · rename_i h; rw [h, Memory.read_erase_self]
  · exact Memory.read_insert_self _ _ _ fun x hx => Memory.fst_ne_of_mem_erase hx

/-- A store leaves every other byte alone. -/
theorem Memory.read_write_ne (m : Memory) {a b : Nat} (v : Byte) (h : b ≠ a) : (m.write a v).read b = m.read b := by
  unfold Memory.write
  split
  · exact Memory.read_erase_ne m h
  · rw [Memory.read_insert_ne _ _ h, Memory.read_erase_ne m h]

theorem Memory.read_write (m : Memory) (a b : Nat) (v : Byte) :
    (m.write a v).read b = if b = a then v else m.read b := by
  split
  · rename_i h; rw [h, Memory.read_write_self]
  · rename_i h; exact Memory.read_write_ne m v h

/-! ## The canonical form -/

theorem Memory.wf_nil : Memory.wf [] := ⟨List.Pairwise.nil, by simp⟩

theorem Memory.wf_erase {m : Memory} (h : m.wf) (a : Nat) : (m.erase a).wf :=
  ⟨h.1.sublist List.filter_sublist, fun x hx => h.2 x (List.mem_filter.mp hx).1⟩

theorem Memory.mem_insert {m : Memory} {a : Nat} {v : Byte} {x : Host.Cell} :
    x ∈ m.insert a v ↔ x = (a, v) ∨ x ∈ m := by
  induction m with
  | nil => simp [Memory.insert]
  | cons y m ih =>
    by_cases hlt : a < y.1 <;> simp [Memory.insert, hlt, ih]
    tauto

theorem Memory.pairwise_insert {m : Memory} (h : m.Pairwise (fun x y => x.1 < y.1)) (a : Nat) (v : Byte)
    (hne : ∀ x ∈ m, x.1 ≠ a) : (m.insert a v).Pairwise (fun x y => x.1 < y.1) := by
  induction m with
  | nil => simp [Memory.insert]
  | cons y m ih =>
    rw [List.pairwise_cons] at h
    have hy := hne y (by simp)
    by_cases hlt : a < y.1
    · simp only [Memory.insert, hlt, if_true, List.pairwise_cons]
      refine ⟨fun x hx => ?_, h.1, h.2⟩
      rcases List.mem_cons.mp hx with rfl | hx
      · exact hlt
      · exact Nat.lt_trans hlt (h.1 x hx)
    · simp only [Memory.insert, hlt, if_false, List.pairwise_cons]
      refine ⟨fun x hx => ?_, ih h.2 fun x hx => hne x (by simp [hx])⟩
      rcases Memory.mem_insert.mp hx with rfl | hx
      · exact Nat.lt_of_le_of_ne (Nat.le_of_not_lt hlt) hy
      · exact h.1 x hx

/-- A store keeps the canonical form. -/
theorem Memory.wf_write {m : Memory} (h : m.wf) {a : Nat} (ha : isStorage a = true) (v : Byte) : (m.write a v).wf := by
  unfold Memory.write
  split
  · exact Memory.wf_erase h a
  · rename_i hv
    refine ⟨Memory.pairwise_insert (Memory.wf_erase h a).1 a v fun x hx => Memory.fst_ne_of_mem_erase hx, fun x hx => ?_⟩
    rcases Memory.mem_insert.mp hx with rfl | hx
    · exact ⟨ha, hv⟩
    · exact (Memory.wf_erase h a).2 x hx

/-- An address below every listed one is not listed. -/
theorem Memory.read_of_lt {m : Memory} {a : Nat} (h : ∀ x ∈ m, a < x.1) : m.read a = unlisted a := by
  induction m with
  | nil => rfl
  | cons x m ih =>
    have hx := h x (by simp)
    rw [Memory.read_cons, if_neg (by omega), ih fun y hy => h y (by simp [hy])]

theorem Memory.wf_tail {x : Host.Cell} {m : Memory} (h : Memory.wf (x :: m)) : m.wf :=
  ⟨(List.pairwise_cons.mp h.1).2, fun y hy => h.2 y (by simp [hy])⟩

/-- Equal contents are equal lists: the form is canonical. -/
theorem Memory.ext_of_read {m n : Memory} (hm : m.wf) (hn : n.wf) (h : ∀ a, m.read a = n.read a) : m = n := by
  induction m generalizing n with
  | nil =>
    cases n with
    | nil => rfl
    | cons y n =>
      have := h y.1
      rw [Memory.read_cons, if_pos rfl] at this
      exact absurd this.symm (hn.2 y (by simp)).2
  | cons x m ih =>
    have hxm := (List.pairwise_cons.mp hm.1).1
    have hx := hm.2 x (by simp)
    cases n with
    | nil =>
      have := h x.1
      rw [Memory.read_cons, if_pos rfl] at this
      exact absurd this hx.2
    | cons y n =>
      have hyn := (List.pairwise_cons.mp hn.1).1
      have hy := hn.2 y (by simp)
      have hxy : x.1 = y.1 := by
        rcases Nat.lt_trichotomy x.1 y.1 with hlt | heq | hlt
        · have h1 := h x.1
          rw [Memory.read_cons, if_pos rfl, Memory.read_of_lt (m := y :: n)] at h1
          · exact absurd h1 hx.2
          · intro z hz
            rcases List.mem_cons.mp hz with rfl | hz
            · exact hlt
            · exact Nat.lt_trans hlt (hyn z hz)
        · exact heq
        · have h1 := h y.1
          rw [Memory.read_cons (x := y), if_pos rfl, Memory.read_of_lt (m := x :: m)] at h1
          · exact absurd h1.symm hy.2
          · intro z hz
            rcases List.mem_cons.mp hz with rfl | hz
            · exact hlt
            · exact Nat.lt_trans hlt (hxm z hz)
      have hv : x.2 = y.2 := by
        have h1 := h x.1
        rwa [Memory.read_cons, if_pos rfl, Memory.read_cons, if_pos hxy.symm] at h1
      have hxe : x = y := Prod.ext hxy hv
      subst hxe
      congr 1
      refine ih (Memory.wf_tail hm) (Memory.wf_tail hn) fun a => ?_
      by_cases ha : x.1 = a
      · rw [← ha, Memory.read_of_lt hxm, Memory.read_of_lt hyn]
      · have h1 := h a
        rwa [Memory.read_cons, if_neg ha, Memory.read_cons, if_neg ha] at h1

/-! ## `phys` and `Raw` (R42, R44) -/

theorem isStorage_phys (a : Word) : isStorage (phys a) = true := by
  unfold isStorage phys
  have := a.isLt
  split <;> simp <;> omega

/-- Outside the echo, `phys` is the address. -/
theorem phys_of_not_echo {a : Word} (h : ¬(0xE000 ≤ a.toNat ∧ a.toNat ≤ 0xFDFF)) : phys a = a.toNat := if_neg h

@[simp] theorem raw_rawWrite_self (s : State) (a : Word) (v : Byte) : raw (rawWrite s a v) a = v :=
  Memory.read_write_self _ _ _

theorem raw_rawWrite (s : State) (a b : Word) (v : Byte) :
    raw (rawWrite s a v) b = if phys b = phys a then v else raw s b := Memory.read_write _ _ _ _

theorem raw_rawWrite_ne (s : State) {a b : Word} (v : Byte) (h : phys b ≠ phys a) :
    raw (rawWrite s a v) b = raw s b := Memory.read_write_ne _ _ h

/-- `Raw` depends on storage only. -/
theorem raw_congr {s t : State} (h : t.mem = s.mem) (a : Word) : raw t a = raw s a := by unfold raw; rw [h]

theorem rawWrite_wf {s : State} (h : s.mem.wf) (a : Word) (v : Byte) : (rawWrite s a v).mem.wf :=
  Memory.wf_write h (isStorage_phys a) v

/-! ## The DMA copy (R350) -/

theorem dmaCopy_wf (old : Memory) (page : Byte) (n : Nat) (hn : n ≤ 160) {m : Memory} (h : m.wf) :
    (dmaCopy old page n m).wf := by
  induction n with
  | zero => exact h
  | succ n ih => exact Memory.wf_write (ih (by omega)) (by unfold isStorage; simp; omega) _

/-- OAM byte `i` of the first `n` holds the source byte as it was; every other byte is as before. -/
theorem dmaCopy_read (old : Memory) (page : Byte) (n : Nat) (m : Memory) (k : Nat) :
    (dmaCopy old page n m).read k =
      if 0xFE00 ≤ k ∧ k < 0xFE00 + n then old.read (phys (word page 0 + BitVec.ofNat 16 (k - 0xFE00))) else m.read k := by
  induction n with
  | zero => rw [if_neg (by omega)]; rfl
  | succ n ih =>
    rw [dmaCopy, Memory.read_write, ih]
    by_cases hk : k = 0xFE00 + n
    · subst hk
      rw [if_pos rfl, if_pos (by omega), Nat.add_sub_cancel_left]
    · rw [if_neg hk]
      by_cases h : 0xFE00 ≤ k ∧ k < 0xFE00 + n
      · rw [if_pos h, if_pos (by omega)]
      · rw [if_neg h, if_neg (by omega)]

end Sys2Proof.Machine
end

