-- ==== Sys2Proof/Laws/State.lean ====
section
/-! SUPPORT. What the named updates of the state leave alone, one lemma per field, and what they write. -/

namespace Sys2Proof.Machine

/-! ## `rawWrite` -/

@[simp] theorem rawWrite_cfg (s : State) (k : Word) (v : Byte) : (rawWrite s k v).cfg = s.cfg := rfl
@[simp] theorem rawWrite_a (s : State) (k : Word) (v : Byte) : (rawWrite s k v).a = s.a := rfl
@[simp] theorem rawWrite_f (s : State) (k : Word) (v : Byte) : (rawWrite s k v).f = s.f := rfl
@[simp] theorem rawWrite_b (s : State) (k : Word) (v : Byte) : (rawWrite s k v).b = s.b := rfl
@[simp] theorem rawWrite_c (s : State) (k : Word) (v : Byte) : (rawWrite s k v).c = s.c := rfl
@[simp] theorem rawWrite_d (s : State) (k : Word) (v : Byte) : (rawWrite s k v).d = s.d := rfl
@[simp] theorem rawWrite_e (s : State) (k : Word) (v : Byte) : (rawWrite s k v).e = s.e := rfl
@[simp] theorem rawWrite_h (s : State) (k : Word) (v : Byte) : (rawWrite s k v).h = s.h := rfl
@[simp] theorem rawWrite_l (s : State) (k : Word) (v : Byte) : (rawWrite s k v).l = s.l := rfl
@[simp] theorem rawWrite_sp (s : State) (k : Word) (v : Byte) : (rawWrite s k v).sp = s.sp := rfl
@[simp] theorem rawWrite_pc (s : State) (k : Word) (v : Byte) : (rawWrite s k v).pc = s.pc := rfl
@[simp] theorem rawWrite_ime (s : State) (k : Word) (v : Byte) : (rawWrite s k v).ime = s.ime := rfl
@[simp] theorem rawWrite_halted (s : State) (k : Word) (v : Byte) : (rawWrite s k v).halted = s.halted := rfl
@[simp] theorem rawWrite_haltBug (s : State) (k : Word) (v : Byte) : (rawWrite s k v).haltBug = s.haltBug := rfl
@[simp] theorem rawWrite_running (s : State) (k : Word) (v : Byte) : (rawWrite s k v).running = s.running := rfl
@[simp] theorem rawWrite_imeDelay (s : State) (k : Word) (v : Byte) : (rawWrite s k v).imeDelay = s.imeDelay := rfl
@[simp] theorem rawWrite_bootRomEnabled (s : State) (k : Word) (v : Byte) : (rawWrite s k v).bootRomEnabled = s.bootRomEnabled := rfl
@[simp] theorem rawWrite_ppuMode (s : State) (k : Word) (v : Byte) : (rawWrite s k v).ppuMode = s.ppuMode := rfl
@[simp] theorem rawWrite_ppuCounter (s : State) (k : Word) (v : Byte) : (rawWrite s k v).ppuCounter = s.ppuCounter := rfl
@[simp] theorem rawWrite_ly (s : State) (k : Word) (v : Byte) : (rawWrite s k v).ly = s.ly := rfl
@[simp] theorem rawWrite_sprites (s : State) (k : Word) (v : Byte) : (rawWrite s k v).sprites = s.sprites := rfl
@[simp] theorem rawWrite_divAcc (s : State) (k : Word) (v : Byte) : (rawWrite s k v).divAcc = s.divAcc := rfl
@[simp] theorem rawWrite_timaAcc (s : State) (k : Word) (v : Byte) : (rawWrite s k v).timaAcc = s.timaAcc := rfl
@[simp] theorem rawWrite_dmaRunning (s : State) (k : Word) (v : Byte) : (rawWrite s k v).dmaRunning = s.dmaRunning := rfl
@[simp] theorem rawWrite_dmaCounter (s : State) (k : Word) (v : Byte) : (rawWrite s k v).dmaCounter = s.dmaCounter := rfl
@[simp] theorem rawWrite_buttons (s : State) (k : Word) (v : Byte) : (rawWrite s k v).buttons = s.buttons := rfl
@[simp] theorem rawWrite_frameCycles (s : State) (k : Word) (v : Byte) : (rawWrite s k v).frameCycles = s.frameCycles := rfl
@[simp] theorem rawWrite_cycles (s : State) (k : Word) (v : Byte) : (rawWrite s k v).cycles = s.cycles := rfl
@[simp] theorem rawWrite_pixelOut (s : State) (k : Word) (v : Byte) : (rawWrite s k v).pixelOut = s.pixelOut := rfl
@[simp] theorem rawWrite_serialOut (s : State) (k : Word) (v : Byte) : (rawWrite s k v).serialOut = s.serialOut := rfl
@[simp] theorem rawWrite_hostInputs (s : State) (k : Word) (v : Byte) : (rawWrite s k v).hostInputs = s.hostInputs := rfl

/-! ## `setFlags` -/

@[simp] theorem setFlags_cfg (s : State) (z n h c : Bool) : (setFlags s z n h c).cfg = s.cfg := rfl
@[simp] theorem setFlags_a (s : State) (z n h c : Bool) : (setFlags s z n h c).a = s.a := rfl
@[simp] theorem setFlags_b (s : State) (z n h c : Bool) : (setFlags s z n h c).b = s.b := rfl
@[simp] theorem setFlags_c (s : State) (z n h c : Bool) : (setFlags s z n h c).c = s.c := rfl
@[simp] theorem setFlags_d (s : State) (z n h c : Bool) : (setFlags s z n h c).d = s.d := rfl
@[simp] theorem setFlags_e (s : State) (z n h c : Bool) : (setFlags s z n h c).e = s.e := rfl
@[simp] theorem setFlags_h (s : State) (z n h c : Bool) : (setFlags s z n h c).h = s.h := rfl
@[simp] theorem setFlags_l (s : State) (z n h c : Bool) : (setFlags s z n h c).l = s.l := rfl
@[simp] theorem setFlags_sp (s : State) (z n h c : Bool) : (setFlags s z n h c).sp = s.sp := rfl
@[simp] theorem setFlags_pc (s : State) (z n h c : Bool) : (setFlags s z n h c).pc = s.pc := rfl
@[simp] theorem setFlags_ime (s : State) (z n h c : Bool) : (setFlags s z n h c).ime = s.ime := rfl
@[simp] theorem setFlags_halted (s : State) (z n h c : Bool) : (setFlags s z n h c).halted = s.halted := rfl
@[simp] theorem setFlags_haltBug (s : State) (z n h c : Bool) : (setFlags s z n h c).haltBug = s.haltBug := rfl
@[simp] theorem setFlags_running (s : State) (z n h c : Bool) : (setFlags s z n h c).running = s.running := rfl
@[simp] theorem setFlags_imeDelay (s : State) (z n h c : Bool) : (setFlags s z n h c).imeDelay = s.imeDelay := rfl
@[simp] theorem setFlags_mem (s : State) (z n h c : Bool) : (setFlags s z n h c).mem = s.mem := rfl
@[simp] theorem setFlags_bootRomEnabled (s : State) (z n h c : Bool) : (setFlags s z n h c).bootRomEnabled = s.bootRomEnabled := rfl
@[simp] theorem setFlags_ppuMode (s : State) (z n h c : Bool) : (setFlags s z n h c).ppuMode = s.ppuMode := rfl
@[simp] theorem setFlags_ppuCounter (s : State) (z n h c : Bool) : (setFlags s z n h c).ppuCounter = s.ppuCounter := rfl
@[simp] theorem setFlags_ly (s : State) (z n h c : Bool) : (setFlags s z n h c).ly = s.ly := rfl
@[simp] theorem setFlags_sprites (s : State) (z n h c : Bool) : (setFlags s z n h c).sprites = s.sprites := rfl
@[simp] theorem setFlags_divAcc (s : State) (z n h c : Bool) : (setFlags s z n h c).divAcc = s.divAcc := rfl
@[simp] theorem setFlags_timaAcc (s : State) (z n h c : Bool) : (setFlags s z n h c).timaAcc = s.timaAcc := rfl
@[simp] theorem setFlags_dmaRunning (s : State) (z n h c : Bool) : (setFlags s z n h c).dmaRunning = s.dmaRunning := rfl
@[simp] theorem setFlags_dmaCounter (s : State) (z n h c : Bool) : (setFlags s z n h c).dmaCounter = s.dmaCounter := rfl
@[simp] theorem setFlags_buttons (s : State) (z n h c : Bool) : (setFlags s z n h c).buttons = s.buttons := rfl
@[simp] theorem setFlags_frameCycles (s : State) (z n h c : Bool) : (setFlags s z n h c).frameCycles = s.frameCycles := rfl
@[simp] theorem setFlags_cycles (s : State) (z n h c : Bool) : (setFlags s z n h c).cycles = s.cycles := rfl
@[simp] theorem setFlags_pixelOut (s : State) (z n h c : Bool) : (setFlags s z n h c).pixelOut = s.pixelOut := rfl
@[simp] theorem setFlags_serialOut (s : State) (z n h c : Bool) : (setFlags s z n h c).serialOut = s.serialOut := rfl
@[simp] theorem setFlags_hostInputs (s : State) (z n h c : Bool) : (setFlags s z n h c).hostInputs = s.hostInputs := rfl

/-! ## `setF` -/

@[simp] theorem setF_cfg (s : State) (v : Byte) : (setF s v).cfg = s.cfg := rfl
@[simp] theorem setF_a (s : State) (v : Byte) : (setF s v).a = s.a := rfl
@[simp] theorem setF_b (s : State) (v : Byte) : (setF s v).b = s.b := rfl
@[simp] theorem setF_c (s : State) (v : Byte) : (setF s v).c = s.c := rfl
@[simp] theorem setF_d (s : State) (v : Byte) : (setF s v).d = s.d := rfl
@[simp] theorem setF_e (s : State) (v : Byte) : (setF s v).e = s.e := rfl
@[simp] theorem setF_h (s : State) (v : Byte) : (setF s v).h = s.h := rfl
@[simp] theorem setF_l (s : State) (v : Byte) : (setF s v).l = s.l := rfl
@[simp] theorem setF_sp (s : State) (v : Byte) : (setF s v).sp = s.sp := rfl
@[simp] theorem setF_pc (s : State) (v : Byte) : (setF s v).pc = s.pc := rfl
@[simp] theorem setF_ime (s : State) (v : Byte) : (setF s v).ime = s.ime := rfl
@[simp] theorem setF_halted (s : State) (v : Byte) : (setF s v).halted = s.halted := rfl
@[simp] theorem setF_haltBug (s : State) (v : Byte) : (setF s v).haltBug = s.haltBug := rfl
@[simp] theorem setF_running (s : State) (v : Byte) : (setF s v).running = s.running := rfl
@[simp] theorem setF_imeDelay (s : State) (v : Byte) : (setF s v).imeDelay = s.imeDelay := rfl
@[simp] theorem setF_mem (s : State) (v : Byte) : (setF s v).mem = s.mem := rfl
@[simp] theorem setF_bootRomEnabled (s : State) (v : Byte) : (setF s v).bootRomEnabled = s.bootRomEnabled := rfl
@[simp] theorem setF_ppuMode (s : State) (v : Byte) : (setF s v).ppuMode = s.ppuMode := rfl
@[simp] theorem setF_ppuCounter (s : State) (v : Byte) : (setF s v).ppuCounter = s.ppuCounter := rfl
@[simp] theorem setF_ly (s : State) (v : Byte) : (setF s v).ly = s.ly := rfl
@[simp] theorem setF_sprites (s : State) (v : Byte) : (setF s v).sprites = s.sprites := rfl
@[simp] theorem setF_divAcc (s : State) (v : Byte) : (setF s v).divAcc = s.divAcc := rfl
@[simp] theorem setF_timaAcc (s : State) (v : Byte) : (setF s v).timaAcc = s.timaAcc := rfl
@[simp] theorem setF_dmaRunning (s : State) (v : Byte) : (setF s v).dmaRunning = s.dmaRunning := rfl
@[simp] theorem setF_dmaCounter (s : State) (v : Byte) : (setF s v).dmaCounter = s.dmaCounter := rfl
@[simp] theorem setF_buttons (s : State) (v : Byte) : (setF s v).buttons = s.buttons := rfl
@[simp] theorem setF_frameCycles (s : State) (v : Byte) : (setF s v).frameCycles = s.frameCycles := rfl
@[simp] theorem setF_cycles (s : State) (v : Byte) : (setF s v).cycles = s.cycles := rfl
@[simp] theorem setF_pixelOut (s : State) (v : Byte) : (setF s v).pixelOut = s.pixelOut := rfl
@[simp] theorem setF_serialOut (s : State) (v : Byte) : (setF s v).serialOut = s.serialOut := rfl
@[simp] theorem setF_hostInputs (s : State) (v : Byte) : (setF s v).hostInputs = s.hostInputs := rfl

/-! ## `setHl` -/

@[simp] theorem setHl_cfg (s : State) (v : Word) : (setHl s v).cfg = s.cfg := rfl
@[simp] theorem setHl_a (s : State) (v : Word) : (setHl s v).a = s.a := rfl
@[simp] theorem setHl_f (s : State) (v : Word) : (setHl s v).f = s.f := rfl
@[simp] theorem setHl_b (s : State) (v : Word) : (setHl s v).b = s.b := rfl
@[simp] theorem setHl_c (s : State) (v : Word) : (setHl s v).c = s.c := rfl
@[simp] theorem setHl_d (s : State) (v : Word) : (setHl s v).d = s.d := rfl
@[simp] theorem setHl_e (s : State) (v : Word) : (setHl s v).e = s.e := rfl
@[simp] theorem setHl_sp (s : State) (v : Word) : (setHl s v).sp = s.sp := rfl
@[simp] theorem setHl_pc (s : State) (v : Word) : (setHl s v).pc = s.pc := rfl
@[simp] theorem setHl_ime (s : State) (v : Word) : (setHl s v).ime = s.ime := rfl
@[simp] theorem setHl_halted (s : State) (v : Word) : (setHl s v).halted = s.halted := rfl
@[simp] theorem setHl_haltBug (s : State) (v : Word) : (setHl s v).haltBug = s.haltBug := rfl
@[simp] theorem setHl_running (s : State) (v : Word) : (setHl s v).running = s.running := rfl
@[simp] theorem setHl_imeDelay (s : State) (v : Word) : (setHl s v).imeDelay = s.imeDelay := rfl
@[simp] theorem setHl_mem (s : State) (v : Word) : (setHl s v).mem = s.mem := rfl
@[simp] theorem setHl_bootRomEnabled (s : State) (v : Word) : (setHl s v).bootRomEnabled = s.bootRomEnabled := rfl
@[simp] theorem setHl_ppuMode (s : State) (v : Word) : (setHl s v).ppuMode = s.ppuMode := rfl
@[simp] theorem setHl_ppuCounter (s : State) (v : Word) : (setHl s v).ppuCounter = s.ppuCounter := rfl
@[simp] theorem setHl_ly (s : State) (v : Word) : (setHl s v).ly = s.ly := rfl
@[simp] theorem setHl_sprites (s : State) (v : Word) : (setHl s v).sprites = s.sprites := rfl
@[simp] theorem setHl_divAcc (s : State) (v : Word) : (setHl s v).divAcc = s.divAcc := rfl
@[simp] theorem setHl_timaAcc (s : State) (v : Word) : (setHl s v).timaAcc = s.timaAcc := rfl
@[simp] theorem setHl_dmaRunning (s : State) (v : Word) : (setHl s v).dmaRunning = s.dmaRunning := rfl
@[simp] theorem setHl_dmaCounter (s : State) (v : Word) : (setHl s v).dmaCounter = s.dmaCounter := rfl
@[simp] theorem setHl_buttons (s : State) (v : Word) : (setHl s v).buttons = s.buttons := rfl
@[simp] theorem setHl_frameCycles (s : State) (v : Word) : (setHl s v).frameCycles = s.frameCycles := rfl
@[simp] theorem setHl_cycles (s : State) (v : Word) : (setHl s v).cycles = s.cycles := rfl
@[simp] theorem setHl_pixelOut (s : State) (v : Word) : (setHl s v).pixelOut = s.pixelOut := rfl
@[simp] theorem setHl_serialOut (s : State) (v : Word) : (setHl s v).serialOut = s.serialOut := rfl
@[simp] theorem setHl_hostInputs (s : State) (v : Word) : (setHl s v).hostInputs = s.hostInputs := rfl

/-! ## `setReg8` -/

@[simp] theorem setReg8_cfg (s : State) (r : Reg8) (v : Byte) : (setReg8 s r v).cfg = s.cfg := by cases r <;> rfl
@[simp] theorem setReg8_f (s : State) (r : Reg8) (v : Byte) : (setReg8 s r v).f = s.f := by cases r <;> rfl
@[simp] theorem setReg8_sp (s : State) (r : Reg8) (v : Byte) : (setReg8 s r v).sp = s.sp := by cases r <;> rfl
@[simp] theorem setReg8_pc (s : State) (r : Reg8) (v : Byte) : (setReg8 s r v).pc = s.pc := by cases r <;> rfl
@[simp] theorem setReg8_ime (s : State) (r : Reg8) (v : Byte) : (setReg8 s r v).ime = s.ime := by cases r <;> rfl
@[simp] theorem setReg8_halted (s : State) (r : Reg8) (v : Byte) : (setReg8 s r v).halted = s.halted := by cases r <;> rfl
@[simp] theorem setReg8_haltBug (s : State) (r : Reg8) (v : Byte) : (setReg8 s r v).haltBug = s.haltBug := by cases r <;> rfl
@[simp] theorem setReg8_running (s : State) (r : Reg8) (v : Byte) : (setReg8 s r v).running = s.running := by cases r <;> rfl
@[simp] theorem setReg8_imeDelay (s : State) (r : Reg8) (v : Byte) : (setReg8 s r v).imeDelay = s.imeDelay := by cases r <;> rfl
@[simp] theorem setReg8_mem (s : State) (r : Reg8) (v : Byte) : (setReg8 s r v).mem = s.mem := by cases r <;> rfl
@[simp] theorem setReg8_bootRomEnabled (s : State) (r : Reg8) (v : Byte) : (setReg8 s r v).bootRomEnabled = s.bootRomEnabled := by cases r <;> rfl
@[simp] theorem setReg8_ppuMode (s : State) (r : Reg8) (v : Byte) : (setReg8 s r v).ppuMode = s.ppuMode := by cases r <;> rfl
@[simp] theorem setReg8_ppuCounter (s : State) (r : Reg8) (v : Byte) : (setReg8 s r v).ppuCounter = s.ppuCounter := by cases r <;> rfl
@[simp] theorem setReg8_ly (s : State) (r : Reg8) (v : Byte) : (setReg8 s r v).ly = s.ly := by cases r <;> rfl
@[simp] theorem setReg8_sprites (s : State) (r : Reg8) (v : Byte) : (setReg8 s r v).sprites = s.sprites := by cases r <;> rfl
@[simp] theorem setReg8_divAcc (s : State) (r : Reg8) (v : Byte) : (setReg8 s r v).divAcc = s.divAcc := by cases r <;> rfl
@[simp] theorem setReg8_timaAcc (s : State) (r : Reg8) (v : Byte) : (setReg8 s r v).timaAcc = s.timaAcc := by cases r <;> rfl
@[simp] theorem setReg8_dmaRunning (s : State) (r : Reg8) (v : Byte) : (setReg8 s r v).dmaRunning = s.dmaRunning := by cases r <;> rfl
@[simp] theorem setReg8_dmaCounter (s : State) (r : Reg8) (v : Byte) : (setReg8 s r v).dmaCounter = s.dmaCounter := by cases r <;> rfl
@[simp] theorem setReg8_buttons (s : State) (r : Reg8) (v : Byte) : (setReg8 s r v).buttons = s.buttons := by cases r <;> rfl
@[simp] theorem setReg8_frameCycles (s : State) (r : Reg8) (v : Byte) : (setReg8 s r v).frameCycles = s.frameCycles := by cases r <;> rfl
@[simp] theorem setReg8_cycles (s : State) (r : Reg8) (v : Byte) : (setReg8 s r v).cycles = s.cycles := by cases r <;> rfl
@[simp] theorem setReg8_pixelOut (s : State) (r : Reg8) (v : Byte) : (setReg8 s r v).pixelOut = s.pixelOut := by cases r <;> rfl
@[simp] theorem setReg8_serialOut (s : State) (r : Reg8) (v : Byte) : (setReg8 s r v).serialOut = s.serialOut := by cases r <;> rfl
@[simp] theorem setReg8_hostInputs (s : State) (r : Reg8) (v : Byte) : (setReg8 s r v).hostInputs = s.hostInputs := by cases r <;> rfl

/-! ## `setR16` -/

@[simp] theorem setR16_cfg (s : State) (p : R16) (v : Word) : (setR16 s p v).cfg = s.cfg := by cases p <;> rfl
@[simp] theorem setR16_a (s : State) (p : R16) (v : Word) : (setR16 s p v).a = s.a := by cases p <;> rfl
@[simp] theorem setR16_f (s : State) (p : R16) (v : Word) : (setR16 s p v).f = s.f := by cases p <;> rfl
@[simp] theorem setR16_pc (s : State) (p : R16) (v : Word) : (setR16 s p v).pc = s.pc := by cases p <;> rfl
@[simp] theorem setR16_ime (s : State) (p : R16) (v : Word) : (setR16 s p v).ime = s.ime := by cases p <;> rfl
@[simp] theorem setR16_halted (s : State) (p : R16) (v : Word) : (setR16 s p v).halted = s.halted := by cases p <;> rfl
@[simp] theorem setR16_haltBug (s : State) (p : R16) (v : Word) : (setR16 s p v).haltBug = s.haltBug := by cases p <;> rfl
@[simp] theorem setR16_running (s : State) (p : R16) (v : Word) : (setR16 s p v).running = s.running := by cases p <;> rfl
@[simp] theorem setR16_imeDelay (s : State) (p : R16) (v : Word) : (setR16 s p v).imeDelay = s.imeDelay := by cases p <;> rfl
@[simp] theorem setR16_mem (s : State) (p : R16) (v : Word) : (setR16 s p v).mem = s.mem := by cases p <;> rfl
@[simp] theorem setR16_bootRomEnabled (s : State) (p : R16) (v : Word) : (setR16 s p v).bootRomEnabled = s.bootRomEnabled := by cases p <;> rfl
@[simp] theorem setR16_ppuMode (s : State) (p : R16) (v : Word) : (setR16 s p v).ppuMode = s.ppuMode := by cases p <;> rfl
@[simp] theorem setR16_ppuCounter (s : State) (p : R16) (v : Word) : (setR16 s p v).ppuCounter = s.ppuCounter := by cases p <;> rfl
@[simp] theorem setR16_ly (s : State) (p : R16) (v : Word) : (setR16 s p v).ly = s.ly := by cases p <;> rfl
@[simp] theorem setR16_sprites (s : State) (p : R16) (v : Word) : (setR16 s p v).sprites = s.sprites := by cases p <;> rfl
@[simp] theorem setR16_divAcc (s : State) (p : R16) (v : Word) : (setR16 s p v).divAcc = s.divAcc := by cases p <;> rfl
@[simp] theorem setR16_timaAcc (s : State) (p : R16) (v : Word) : (setR16 s p v).timaAcc = s.timaAcc := by cases p <;> rfl
@[simp] theorem setR16_dmaRunning (s : State) (p : R16) (v : Word) : (setR16 s p v).dmaRunning = s.dmaRunning := by cases p <;> rfl
@[simp] theorem setR16_dmaCounter (s : State) (p : R16) (v : Word) : (setR16 s p v).dmaCounter = s.dmaCounter := by cases p <;> rfl
@[simp] theorem setR16_buttons (s : State) (p : R16) (v : Word) : (setR16 s p v).buttons = s.buttons := by cases p <;> rfl
@[simp] theorem setR16_frameCycles (s : State) (p : R16) (v : Word) : (setR16 s p v).frameCycles = s.frameCycles := by cases p <;> rfl
@[simp] theorem setR16_cycles (s : State) (p : R16) (v : Word) : (setR16 s p v).cycles = s.cycles := by cases p <;> rfl
@[simp] theorem setR16_pixelOut (s : State) (p : R16) (v : Word) : (setR16 s p v).pixelOut = s.pixelOut := by cases p <;> rfl
@[simp] theorem setR16_serialOut (s : State) (p : R16) (v : Word) : (setR16 s p v).serialOut = s.serialOut := by cases p <;> rfl
@[simp] theorem setR16_hostInputs (s : State) (p : R16) (v : Word) : (setR16 s p v).hostInputs = s.hostInputs := by cases p <;> rfl

/-! ## `setR16s` -/

@[simp] theorem setR16s_cfg (s : State) (p : R16S) (v : Word) : (setR16s s p v).cfg = s.cfg := by cases p <;> rfl
@[simp] theorem setR16s_sp (s : State) (p : R16S) (v : Word) : (setR16s s p v).sp = s.sp := by cases p <;> rfl
@[simp] theorem setR16s_pc (s : State) (p : R16S) (v : Word) : (setR16s s p v).pc = s.pc := by cases p <;> rfl
@[simp] theorem setR16s_ime (s : State) (p : R16S) (v : Word) : (setR16s s p v).ime = s.ime := by cases p <;> rfl
@[simp] theorem setR16s_halted (s : State) (p : R16S) (v : Word) : (setR16s s p v).halted = s.halted := by cases p <;> rfl
@[simp] theorem setR16s_haltBug (s : State) (p : R16S) (v : Word) : (setR16s s p v).haltBug = s.haltBug := by cases p <;> rfl
@[simp] theorem setR16s_running (s : State) (p : R16S) (v : Word) : (setR16s s p v).running = s.running := by cases p <;> rfl
@[simp] theorem setR16s_imeDelay (s : State) (p : R16S) (v : Word) : (setR16s s p v).imeDelay = s.imeDelay := by cases p <;> rfl
@[simp] theorem setR16s_mem (s : State) (p : R16S) (v : Word) : (setR16s s p v).mem = s.mem := by cases p <;> rfl
@[simp] theorem setR16s_bootRomEnabled (s : State) (p : R16S) (v : Word) : (setR16s s p v).bootRomEnabled = s.bootRomEnabled := by cases p <;> rfl
@[simp] theorem setR16s_ppuMode (s : State) (p : R16S) (v : Word) : (setR16s s p v).ppuMode = s.ppuMode := by cases p <;> rfl
@[simp] theorem setR16s_ppuCounter (s : State) (p : R16S) (v : Word) : (setR16s s p v).ppuCounter = s.ppuCounter := by cases p <;> rfl
@[simp] theorem setR16s_ly (s : State) (p : R16S) (v : Word) : (setR16s s p v).ly = s.ly := by cases p <;> rfl
@[simp] theorem setR16s_sprites (s : State) (p : R16S) (v : Word) : (setR16s s p v).sprites = s.sprites := by cases p <;> rfl
@[simp] theorem setR16s_divAcc (s : State) (p : R16S) (v : Word) : (setR16s s p v).divAcc = s.divAcc := by cases p <;> rfl
@[simp] theorem setR16s_timaAcc (s : State) (p : R16S) (v : Word) : (setR16s s p v).timaAcc = s.timaAcc := by cases p <;> rfl
@[simp] theorem setR16s_dmaRunning (s : State) (p : R16S) (v : Word) : (setR16s s p v).dmaRunning = s.dmaRunning := by cases p <;> rfl
@[simp] theorem setR16s_dmaCounter (s : State) (p : R16S) (v : Word) : (setR16s s p v).dmaCounter = s.dmaCounter := by cases p <;> rfl
@[simp] theorem setR16s_buttons (s : State) (p : R16S) (v : Word) : (setR16s s p v).buttons = s.buttons := by cases p <;> rfl
@[simp] theorem setR16s_frameCycles (s : State) (p : R16S) (v : Word) : (setR16s s p v).frameCycles = s.frameCycles := by cases p <;> rfl
@[simp] theorem setR16s_cycles (s : State) (p : R16S) (v : Word) : (setR16s s p v).cycles = s.cycles := by cases p <;> rfl
@[simp] theorem setR16s_pixelOut (s : State) (p : R16S) (v : Word) : (setR16s s p v).pixelOut = s.pixelOut := by cases p <;> rfl
@[simp] theorem setR16s_serialOut (s : State) (p : R16S) (v : Word) : (setR16s s p v).serialOut = s.serialOut := by cases p <;> rfl
@[simp] theorem setR16s_hostInputs (s : State) (p : R16S) (v : Word) : (setR16s s p v).hostInputs = s.hostInputs := by cases p <;> rfl

/-! ## `popStack` -/

@[simp] theorem popStack_cfg (s : State) : (popStack s).cfg = s.cfg := rfl
@[simp] theorem popStack_a (s : State) : (popStack s).a = s.a := rfl
@[simp] theorem popStack_f (s : State) : (popStack s).f = s.f := rfl
@[simp] theorem popStack_b (s : State) : (popStack s).b = s.b := rfl
@[simp] theorem popStack_c (s : State) : (popStack s).c = s.c := rfl
@[simp] theorem popStack_d (s : State) : (popStack s).d = s.d := rfl
@[simp] theorem popStack_e (s : State) : (popStack s).e = s.e := rfl
@[simp] theorem popStack_h (s : State) : (popStack s).h = s.h := rfl
@[simp] theorem popStack_l (s : State) : (popStack s).l = s.l := rfl
@[simp] theorem popStack_pc (s : State) : (popStack s).pc = s.pc := rfl
@[simp] theorem popStack_ime (s : State) : (popStack s).ime = s.ime := rfl
@[simp] theorem popStack_halted (s : State) : (popStack s).halted = s.halted := rfl
@[simp] theorem popStack_haltBug (s : State) : (popStack s).haltBug = s.haltBug := rfl
@[simp] theorem popStack_running (s : State) : (popStack s).running = s.running := rfl
@[simp] theorem popStack_imeDelay (s : State) : (popStack s).imeDelay = s.imeDelay := rfl
@[simp] theorem popStack_mem (s : State) : (popStack s).mem = s.mem := rfl
@[simp] theorem popStack_bootRomEnabled (s : State) : (popStack s).bootRomEnabled = s.bootRomEnabled := rfl
@[simp] theorem popStack_ppuMode (s : State) : (popStack s).ppuMode = s.ppuMode := rfl
@[simp] theorem popStack_ppuCounter (s : State) : (popStack s).ppuCounter = s.ppuCounter := rfl
@[simp] theorem popStack_ly (s : State) : (popStack s).ly = s.ly := rfl
@[simp] theorem popStack_sprites (s : State) : (popStack s).sprites = s.sprites := rfl
@[simp] theorem popStack_divAcc (s : State) : (popStack s).divAcc = s.divAcc := rfl
@[simp] theorem popStack_timaAcc (s : State) : (popStack s).timaAcc = s.timaAcc := rfl
@[simp] theorem popStack_dmaRunning (s : State) : (popStack s).dmaRunning = s.dmaRunning := rfl
@[simp] theorem popStack_dmaCounter (s : State) : (popStack s).dmaCounter = s.dmaCounter := rfl
@[simp] theorem popStack_buttons (s : State) : (popStack s).buttons = s.buttons := rfl
@[simp] theorem popStack_frameCycles (s : State) : (popStack s).frameCycles = s.frameCycles := rfl
@[simp] theorem popStack_cycles (s : State) : (popStack s).cycles = s.cycles := rfl
@[simp] theorem popStack_pixelOut (s : State) : (popStack s).pixelOut = s.pixelOut := rfl
@[simp] theorem popStack_serialOut (s : State) : (popStack s).serialOut = s.serialOut := rfl
@[simp] theorem popStack_hostInputs (s : State) : (popStack s).hostInputs = s.hostInputs := rfl

/-! ## `afterFetch` -/

@[simp] theorem afterFetch_cfg (s : State) : (afterFetch s).cfg = s.cfg := by unfold afterFetch; split <;> rfl
@[simp] theorem afterFetch_a (s : State) : (afterFetch s).a = s.a := by unfold afterFetch; split <;> rfl
@[simp] theorem afterFetch_f (s : State) : (afterFetch s).f = s.f := by unfold afterFetch; split <;> rfl
@[simp] theorem afterFetch_b (s : State) : (afterFetch s).b = s.b := by unfold afterFetch; split <;> rfl
@[simp] theorem afterFetch_c (s : State) : (afterFetch s).c = s.c := by unfold afterFetch; split <;> rfl
@[simp] theorem afterFetch_d (s : State) : (afterFetch s).d = s.d := by unfold afterFetch; split <;> rfl
@[simp] theorem afterFetch_e (s : State) : (afterFetch s).e = s.e := by unfold afterFetch; split <;> rfl
@[simp] theorem afterFetch_h (s : State) : (afterFetch s).h = s.h := by unfold afterFetch; split <;> rfl
@[simp] theorem afterFetch_l (s : State) : (afterFetch s).l = s.l := by unfold afterFetch; split <;> rfl
@[simp] theorem afterFetch_sp (s : State) : (afterFetch s).sp = s.sp := by unfold afterFetch; split <;> rfl
@[simp] theorem afterFetch_ime (s : State) : (afterFetch s).ime = s.ime := by unfold afterFetch; split <;> rfl
@[simp] theorem afterFetch_halted (s : State) : (afterFetch s).halted = s.halted := by unfold afterFetch; split <;> rfl
@[simp] theorem afterFetch_running (s : State) : (afterFetch s).running = s.running := by unfold afterFetch; split <;> rfl
@[simp] theorem afterFetch_imeDelay (s : State) : (afterFetch s).imeDelay = s.imeDelay := by unfold afterFetch; split <;> rfl
@[simp] theorem afterFetch_mem (s : State) : (afterFetch s).mem = s.mem := by unfold afterFetch; split <;> rfl
@[simp] theorem afterFetch_bootRomEnabled (s : State) : (afterFetch s).bootRomEnabled = s.bootRomEnabled := by unfold afterFetch; split <;> rfl
@[simp] theorem afterFetch_ppuMode (s : State) : (afterFetch s).ppuMode = s.ppuMode := by unfold afterFetch; split <;> rfl
@[simp] theorem afterFetch_ppuCounter (s : State) : (afterFetch s).ppuCounter = s.ppuCounter := by unfold afterFetch; split <;> rfl
@[simp] theorem afterFetch_ly (s : State) : (afterFetch s).ly = s.ly := by unfold afterFetch; split <;> rfl
@[simp] theorem afterFetch_sprites (s : State) : (afterFetch s).sprites = s.sprites := by unfold afterFetch; split <;> rfl
@[simp] theorem afterFetch_divAcc (s : State) : (afterFetch s).divAcc = s.divAcc := by unfold afterFetch; split <;> rfl
@[simp] theorem afterFetch_timaAcc (s : State) : (afterFetch s).timaAcc = s.timaAcc := by unfold afterFetch; split <;> rfl
@[simp] theorem afterFetch_dmaRunning (s : State) : (afterFetch s).dmaRunning = s.dmaRunning := by unfold afterFetch; split <;> rfl
@[simp] theorem afterFetch_dmaCounter (s : State) : (afterFetch s).dmaCounter = s.dmaCounter := by unfold afterFetch; split <;> rfl
@[simp] theorem afterFetch_buttons (s : State) : (afterFetch s).buttons = s.buttons := by unfold afterFetch; split <;> rfl
@[simp] theorem afterFetch_frameCycles (s : State) : (afterFetch s).frameCycles = s.frameCycles := by unfold afterFetch; split <;> rfl
@[simp] theorem afterFetch_cycles (s : State) : (afterFetch s).cycles = s.cycles := by unfold afterFetch; split <;> rfl
@[simp] theorem afterFetch_pixelOut (s : State) : (afterFetch s).pixelOut = s.pixelOut := by unfold afterFetch; split <;> rfl
@[simp] theorem afterFetch_serialOut (s : State) : (afterFetch s).serialOut = s.serialOut := by unfold afterFetch; split <;> rfl
@[simp] theorem afterFetch_hostInputs (s : State) : (afterFetch s).hostInputs = s.hostInputs := by unfold afterFetch; split <;> rfl

/-! ## `request` -/

@[simp] theorem request_cfg (s : State) (i : Nat) : (request s i).cfg = s.cfg := rfl
@[simp] theorem request_a (s : State) (i : Nat) : (request s i).a = s.a := rfl
@[simp] theorem request_f (s : State) (i : Nat) : (request s i).f = s.f := rfl
@[simp] theorem request_b (s : State) (i : Nat) : (request s i).b = s.b := rfl
@[simp] theorem request_c (s : State) (i : Nat) : (request s i).c = s.c := rfl
@[simp] theorem request_d (s : State) (i : Nat) : (request s i).d = s.d := rfl
@[simp] theorem request_e (s : State) (i : Nat) : (request s i).e = s.e := rfl
@[simp] theorem request_h (s : State) (i : Nat) : (request s i).h = s.h := rfl
@[simp] theorem request_l (s : State) (i : Nat) : (request s i).l = s.l := rfl
@[simp] theorem request_sp (s : State) (i : Nat) : (request s i).sp = s.sp := rfl
@[simp] theorem request_pc (s : State) (i : Nat) : (request s i).pc = s.pc := rfl
@[simp] theorem request_ime (s : State) (i : Nat) : (request s i).ime = s.ime := rfl
@[simp] theorem request_halted (s : State) (i : Nat) : (request s i).halted = s.halted := rfl
@[simp] theorem request_haltBug (s : State) (i : Nat) : (request s i).haltBug = s.haltBug := rfl
@[simp] theorem request_running (s : State) (i : Nat) : (request s i).running = s.running := rfl
@[simp] theorem request_imeDelay (s : State) (i : Nat) : (request s i).imeDelay = s.imeDelay := rfl
@[simp] theorem request_bootRomEnabled (s : State) (i : Nat) : (request s i).bootRomEnabled = s.bootRomEnabled := rfl
@[simp] theorem request_ppuMode (s : State) (i : Nat) : (request s i).ppuMode = s.ppuMode := rfl
@[simp] theorem request_ppuCounter (s : State) (i : Nat) : (request s i).ppuCounter = s.ppuCounter := rfl
@[simp] theorem request_ly (s : State) (i : Nat) : (request s i).ly = s.ly := rfl
@[simp] theorem request_sprites (s : State) (i : Nat) : (request s i).sprites = s.sprites := rfl
@[simp] theorem request_divAcc (s : State) (i : Nat) : (request s i).divAcc = s.divAcc := rfl
@[simp] theorem request_timaAcc (s : State) (i : Nat) : (request s i).timaAcc = s.timaAcc := rfl
@[simp] theorem request_dmaRunning (s : State) (i : Nat) : (request s i).dmaRunning = s.dmaRunning := rfl
@[simp] theorem request_dmaCounter (s : State) (i : Nat) : (request s i).dmaCounter = s.dmaCounter := rfl
@[simp] theorem request_buttons (s : State) (i : Nat) : (request s i).buttons = s.buttons := rfl
@[simp] theorem request_frameCycles (s : State) (i : Nat) : (request s i).frameCycles = s.frameCycles := rfl
@[simp] theorem request_cycles (s : State) (i : Nat) : (request s i).cycles = s.cycles := rfl
@[simp] theorem request_pixelOut (s : State) (i : Nat) : (request s i).pixelOut = s.pixelOut := rfl
@[simp] theorem request_serialOut (s : State) (i : Nat) : (request s i).serialOut = s.serialOut := rfl
@[simp] theorem request_hostInputs (s : State) (i : Nat) : (request s i).hostInputs = s.hostInputs := rfl

/-! ## `dmaStart` -/

@[simp] theorem dmaStart_cfg (s : State) (v : Byte) : (dmaStart s v).cfg = s.cfg := rfl
@[simp] theorem dmaStart_a (s : State) (v : Byte) : (dmaStart s v).a = s.a := rfl
@[simp] theorem dmaStart_f (s : State) (v : Byte) : (dmaStart s v).f = s.f := rfl
@[simp] theorem dmaStart_b (s : State) (v : Byte) : (dmaStart s v).b = s.b := rfl
@[simp] theorem dmaStart_c (s : State) (v : Byte) : (dmaStart s v).c = s.c := rfl
@[simp] theorem dmaStart_d (s : State) (v : Byte) : (dmaStart s v).d = s.d := rfl
@[simp] theorem dmaStart_e (s : State) (v : Byte) : (dmaStart s v).e = s.e := rfl
@[simp] theorem dmaStart_h (s : State) (v : Byte) : (dmaStart s v).h = s.h := rfl
@[simp] theorem dmaStart_l (s : State) (v : Byte) : (dmaStart s v).l = s.l := rfl
@[simp] theorem dmaStart_sp (s : State) (v : Byte) : (dmaStart s v).sp = s.sp := rfl
@[simp] theorem dmaStart_pc (s : State) (v : Byte) : (dmaStart s v).pc = s.pc := rfl
@[simp] theorem dmaStart_ime (s : State) (v : Byte) : (dmaStart s v).ime = s.ime := rfl
@[simp] theorem dmaStart_halted (s : State) (v : Byte) : (dmaStart s v).halted = s.halted := rfl
@[simp] theorem dmaStart_haltBug (s : State) (v : Byte) : (dmaStart s v).haltBug = s.haltBug := rfl
@[simp] theorem dmaStart_running (s : State) (v : Byte) : (dmaStart s v).running = s.running := rfl
@[simp] theorem dmaStart_imeDelay (s : State) (v : Byte) : (dmaStart s v).imeDelay = s.imeDelay := rfl
@[simp] theorem dmaStart_bootRomEnabled (s : State) (v : Byte) : (dmaStart s v).bootRomEnabled = s.bootRomEnabled := rfl
@[simp] theorem dmaStart_ppuMode (s : State) (v : Byte) : (dmaStart s v).ppuMode = s.ppuMode := rfl
@[simp] theorem dmaStart_ppuCounter (s : State) (v : Byte) : (dmaStart s v).ppuCounter = s.ppuCounter := rfl
@[simp] theorem dmaStart_ly (s : State) (v : Byte) : (dmaStart s v).ly = s.ly := rfl
@[simp] theorem dmaStart_sprites (s : State) (v : Byte) : (dmaStart s v).sprites = s.sprites := rfl
@[simp] theorem dmaStart_divAcc (s : State) (v : Byte) : (dmaStart s v).divAcc = s.divAcc := rfl
@[simp] theorem dmaStart_timaAcc (s : State) (v : Byte) : (dmaStart s v).timaAcc = s.timaAcc := rfl
@[simp] theorem dmaStart_buttons (s : State) (v : Byte) : (dmaStart s v).buttons = s.buttons := rfl
@[simp] theorem dmaStart_frameCycles (s : State) (v : Byte) : (dmaStart s v).frameCycles = s.frameCycles := rfl
@[simp] theorem dmaStart_cycles (s : State) (v : Byte) : (dmaStart s v).cycles = s.cycles := rfl
@[simp] theorem dmaStart_pixelOut (s : State) (v : Byte) : (dmaStart s v).pixelOut = s.pixelOut := rfl
@[simp] theorem dmaStart_serialOut (s : State) (v : Byte) : (dmaStart s v).serialOut = s.serialOut := rfl
@[simp] theorem dmaStart_hostInputs (s : State) (v : Byte) : (dmaStart s v).hostInputs = s.hostInputs := rfl

/-! ## `resetDiv` -/

@[simp] theorem resetDiv_cfg (s : State) : (resetDiv s).cfg = s.cfg := rfl
@[simp] theorem resetDiv_a (s : State) : (resetDiv s).a = s.a := rfl
@[simp] theorem resetDiv_f (s : State) : (resetDiv s).f = s.f := rfl
@[simp] theorem resetDiv_b (s : State) : (resetDiv s).b = s.b := rfl
@[simp] theorem resetDiv_c (s : State) : (resetDiv s).c = s.c := rfl
@[simp] theorem resetDiv_d (s : State) : (resetDiv s).d = s.d := rfl
@[simp] theorem resetDiv_e (s : State) : (resetDiv s).e = s.e := rfl
@[simp] theorem resetDiv_h (s : State) : (resetDiv s).h = s.h := rfl
@[simp] theorem resetDiv_l (s : State) : (resetDiv s).l = s.l := rfl
@[simp] theorem resetDiv_sp (s : State) : (resetDiv s).sp = s.sp := rfl
@[simp] theorem resetDiv_pc (s : State) : (resetDiv s).pc = s.pc := rfl
@[simp] theorem resetDiv_ime (s : State) : (resetDiv s).ime = s.ime := rfl
@[simp] theorem resetDiv_halted (s : State) : (resetDiv s).halted = s.halted := rfl
@[simp] theorem resetDiv_haltBug (s : State) : (resetDiv s).haltBug = s.haltBug := rfl
@[simp] theorem resetDiv_running (s : State) : (resetDiv s).running = s.running := rfl
@[simp] theorem resetDiv_imeDelay (s : State) : (resetDiv s).imeDelay = s.imeDelay := rfl
@[simp] theorem resetDiv_bootRomEnabled (s : State) : (resetDiv s).bootRomEnabled = s.bootRomEnabled := rfl
@[simp] theorem resetDiv_ppuMode (s : State) : (resetDiv s).ppuMode = s.ppuMode := rfl
@[simp] theorem resetDiv_ppuCounter (s : State) : (resetDiv s).ppuCounter = s.ppuCounter := rfl
@[simp] theorem resetDiv_ly (s : State) : (resetDiv s).ly = s.ly := rfl
@[simp] theorem resetDiv_sprites (s : State) : (resetDiv s).sprites = s.sprites := rfl
@[simp] theorem resetDiv_dmaRunning (s : State) : (resetDiv s).dmaRunning = s.dmaRunning := rfl
@[simp] theorem resetDiv_dmaCounter (s : State) : (resetDiv s).dmaCounter = s.dmaCounter := rfl
@[simp] theorem resetDiv_buttons (s : State) : (resetDiv s).buttons = s.buttons := rfl
@[simp] theorem resetDiv_frameCycles (s : State) : (resetDiv s).frameCycles = s.frameCycles := rfl
@[simp] theorem resetDiv_cycles (s : State) : (resetDiv s).cycles = s.cycles := rfl
@[simp] theorem resetDiv_pixelOut (s : State) : (resetDiv s).pixelOut = s.pixelOut := rfl
@[simp] theorem resetDiv_serialOut (s : State) : (resetDiv s).serialOut = s.serialOut := rfl
@[simp] theorem resetDiv_hostInputs (s : State) : (resetDiv s).hostInputs = s.hostInputs := rfl

/-! ## `busWrite` -/

@[simp] theorem busWrite_cfg (s : State) (k : Word) (v : Byte) : (busWrite s k v).cfg = s.cfg := by unfold busWrite; split_ifs <;> rfl
@[simp] theorem busWrite_a (s : State) (k : Word) (v : Byte) : (busWrite s k v).a = s.a := by unfold busWrite; split_ifs <;> rfl
@[simp] theorem busWrite_f (s : State) (k : Word) (v : Byte) : (busWrite s k v).f = s.f := by unfold busWrite; split_ifs <;> rfl
@[simp] theorem busWrite_b (s : State) (k : Word) (v : Byte) : (busWrite s k v).b = s.b := by unfold busWrite; split_ifs <;> rfl
@[simp] theorem busWrite_c (s : State) (k : Word) (v : Byte) : (busWrite s k v).c = s.c := by unfold busWrite; split_ifs <;> rfl
@[simp] theorem busWrite_d (s : State) (k : Word) (v : Byte) : (busWrite s k v).d = s.d := by unfold busWrite; split_ifs <;> rfl
@[simp] theorem busWrite_e (s : State) (k : Word) (v : Byte) : (busWrite s k v).e = s.e := by unfold busWrite; split_ifs <;> rfl
@[simp] theorem busWrite_h (s : State) (k : Word) (v : Byte) : (busWrite s k v).h = s.h := by unfold busWrite; split_ifs <;> rfl
@[simp] theorem busWrite_l (s : State) (k : Word) (v : Byte) : (busWrite s k v).l = s.l := by unfold busWrite; split_ifs <;> rfl
@[simp] theorem busWrite_sp (s : State) (k : Word) (v : Byte) : (busWrite s k v).sp = s.sp := by unfold busWrite; split_ifs <;> rfl
@[simp] theorem busWrite_pc (s : State) (k : Word) (v : Byte) : (busWrite s k v).pc = s.pc := by unfold busWrite; split_ifs <;> rfl
@[simp] theorem busWrite_ime (s : State) (k : Word) (v : Byte) : (busWrite s k v).ime = s.ime := by unfold busWrite; split_ifs <;> rfl
@[simp] theorem busWrite_halted (s : State) (k : Word) (v : Byte) : (busWrite s k v).halted = s.halted := by unfold busWrite; split_ifs <;> rfl
@[simp] theorem busWrite_haltBug (s : State) (k : Word) (v : Byte) : (busWrite s k v).haltBug = s.haltBug := by unfold busWrite; split_ifs <;> rfl
@[simp] theorem busWrite_running (s : State) (k : Word) (v : Byte) : (busWrite s k v).running = s.running := by unfold busWrite; split_ifs <;> rfl
@[simp] theorem busWrite_imeDelay (s : State) (k : Word) (v : Byte) : (busWrite s k v).imeDelay = s.imeDelay := by unfold busWrite; split_ifs <;> rfl
@[simp] theorem busWrite_ppuMode (s : State) (k : Word) (v : Byte) : (busWrite s k v).ppuMode = s.ppuMode := by unfold busWrite; split_ifs <;> rfl
@[simp] theorem busWrite_ppuCounter (s : State) (k : Word) (v : Byte) : (busWrite s k v).ppuCounter = s.ppuCounter := by unfold busWrite; split_ifs <;> rfl
@[simp] theorem busWrite_ly (s : State) (k : Word) (v : Byte) : (busWrite s k v).ly = s.ly := by unfold busWrite; split_ifs <;> rfl
@[simp] theorem busWrite_sprites (s : State) (k : Word) (v : Byte) : (busWrite s k v).sprites = s.sprites := by unfold busWrite; split_ifs <;> rfl
@[simp] theorem busWrite_buttons (s : State) (k : Word) (v : Byte) : (busWrite s k v).buttons = s.buttons := by unfold busWrite; split_ifs <;> rfl
@[simp] theorem busWrite_frameCycles (s : State) (k : Word) (v : Byte) : (busWrite s k v).frameCycles = s.frameCycles := by unfold busWrite; split_ifs <;> rfl
@[simp] theorem busWrite_cycles (s : State) (k : Word) (v : Byte) : (busWrite s k v).cycles = s.cycles := by unfold busWrite; split_ifs <;> rfl
@[simp] theorem busWrite_pixelOut (s : State) (k : Word) (v : Byte) : (busWrite s k v).pixelOut = s.pixelOut := by unfold busWrite; split_ifs <;> rfl
@[simp] theorem busWrite_serialOut (s : State) (k : Word) (v : Byte) : (busWrite s k v).serialOut = s.serialOut := by unfold busWrite; split_ifs <;> rfl
@[simp] theorem busWrite_hostInputs (s : State) (k : Word) (v : Byte) : (busWrite s k v).hostInputs = s.hostInputs := by unfold busWrite; split_ifs <;> rfl

/-! ## `push16` -/

@[simp] theorem push16_cfg (s : State) (v : Word) : (push16 s v).cfg = s.cfg := by simp [push16]
@[simp] theorem push16_a (s : State) (v : Word) : (push16 s v).a = s.a := by simp [push16]
@[simp] theorem push16_f (s : State) (v : Word) : (push16 s v).f = s.f := by simp [push16]
@[simp] theorem push16_b (s : State) (v : Word) : (push16 s v).b = s.b := by simp [push16]
@[simp] theorem push16_c (s : State) (v : Word) : (push16 s v).c = s.c := by simp [push16]
@[simp] theorem push16_d (s : State) (v : Word) : (push16 s v).d = s.d := by simp [push16]
@[simp] theorem push16_e (s : State) (v : Word) : (push16 s v).e = s.e := by simp [push16]
@[simp] theorem push16_h (s : State) (v : Word) : (push16 s v).h = s.h := by simp [push16]
@[simp] theorem push16_l (s : State) (v : Word) : (push16 s v).l = s.l := by simp [push16]
@[simp] theorem push16_pc (s : State) (v : Word) : (push16 s v).pc = s.pc := by simp [push16]
@[simp] theorem push16_ime (s : State) (v : Word) : (push16 s v).ime = s.ime := by simp [push16]
@[simp] theorem push16_halted (s : State) (v : Word) : (push16 s v).halted = s.halted := by simp [push16]
@[simp] theorem push16_haltBug (s : State) (v : Word) : (push16 s v).haltBug = s.haltBug := by simp [push16]
@[simp] theorem push16_running (s : State) (v : Word) : (push16 s v).running = s.running := by simp [push16]
@[simp] theorem push16_imeDelay (s : State) (v : Word) : (push16 s v).imeDelay = s.imeDelay := by simp [push16]
@[simp] theorem push16_ppuMode (s : State) (v : Word) : (push16 s v).ppuMode = s.ppuMode := by simp [push16]
@[simp] theorem push16_ppuCounter (s : State) (v : Word) : (push16 s v).ppuCounter = s.ppuCounter := by simp [push16]
@[simp] theorem push16_ly (s : State) (v : Word) : (push16 s v).ly = s.ly := by simp [push16]
@[simp] theorem push16_sprites (s : State) (v : Word) : (push16 s v).sprites = s.sprites := by simp [push16]
@[simp] theorem push16_buttons (s : State) (v : Word) : (push16 s v).buttons = s.buttons := by simp [push16]
@[simp] theorem push16_frameCycles (s : State) (v : Word) : (push16 s v).frameCycles = s.frameCycles := by simp [push16]
@[simp] theorem push16_cycles (s : State) (v : Word) : (push16 s v).cycles = s.cycles := by simp [push16]
@[simp] theorem push16_pixelOut (s : State) (v : Word) : (push16 s v).pixelOut = s.pixelOut := by simp [push16]
@[simp] theorem push16_serialOut (s : State) (v : Word) : (push16 s v).serialOut = s.serialOut := by simp [push16]
@[simp] theorem push16_hostInputs (s : State) (v : Word) : (push16 s v).hostInputs = s.hostInputs := by simp [push16]

/-! ## What they write -/

@[simp] theorem setFlags_f (s : State) (z n h c : Bool) : (setFlags s z n h c).f = flagsByte z n h c := rfl
@[simp] theorem setF_f (s : State) (v : Byte) : (setF s v).f = v &&& 0xF0 := rfl
@[simp] theorem popStack_sp (s : State) : (popStack s).sp = s.sp + 2 := rfl
@[simp] theorem push16_sp (s : State) (v : Word) : (push16 s v).sp = s.sp - 2 := rfl
@[simp] theorem resetDiv_divAcc (s : State) : (resetDiv s).divAcc = 0 := rfl
@[simp] theorem resetDiv_timaAcc (s : State) : (resetDiv s).timaAcc = 0 := rfl
@[simp] theorem dmaStart_dmaRunning (s : State) (v : Byte) : (dmaStart s v).dmaRunning = true := rfl
@[simp] theorem dmaStart_dmaCounter (s : State) (v : Byte) : (dmaStart s v).dmaCounter = 0 := rfl

@[simp] theorem reg8_setReg8_self (s : State) (r : Reg8) (v : Byte) : reg8 (setReg8 s r v) r = v := by cases r <;> rfl

theorem reg8_setReg8 (s : State) (q r : Reg8) (v : Byte) :
    reg8 (setReg8 s r v) q = if q = r then v else reg8 s q := by cases r <;> cases q <;> rfl

/-! ## Words and halves (R11) -/

theorem word_toNat (hi lo : Byte) : (word hi lo).toNat = hi.toNat * 256 + lo.toNat := by
  have h : (word hi lo).toNat = hi.toNat <<< 8 ||| lo.toNat := BitVec.toNat_append hi lo
  rw [h, ← Nat.shiftLeft_add_eq_or_of_lt lo.isLt, Nat.shiftLeft_eq]

theorem hiByte_toNat (w : Word) : (hiByte w).toNat = w.toNat / 256 := by
  have := w.isLt
  simp [hiByte, Nat.shiftRight_eq_div_pow]
  omega

theorem loByte_toNat (w : Word) : (loByte w).toNat = w.toNat % 256 := by simp [loByte]

@[simp] theorem word_hi_lo (w : Word) : word (hiByte w) (loByte w) = w := by
  apply BitVec.eq_of_toNat_eq
  rw [word_toNat, hiByte_toNat, loByte_toNat]
  omega

@[simp] theorem hiByte_word (hi lo : Byte) : hiByte (word hi lo) = hi := by
  apply BitVec.eq_of_toNat_eq
  rw [hiByte_toNat, word_toNat]
  have := lo.isLt
  omega

@[simp] theorem loByte_word (hi lo : Byte) : loByte (word hi lo) = lo := by
  apply BitVec.eq_of_toNat_eq
  rw [loByte_toNat, word_toNat]
  have := lo.isLt
  omega

@[simp] theorem hl_setHl (s : State) (v : Word) : hl (setHl s v) = v := word_hi_lo v

@[simp] theorem r16_setR16_self (s : State) (p : R16) (v : Word) : r16 (setR16 s p v) p = v := by
  cases p <;> simp [r16, setR16, bc, de, hl, setHl]

/-! ## The flags (R12, R13) -/

@[simp] theorem flagsByte_z (z n h c : Bool) : (flagsByte z n h c).getLsbD 7 = z := by cases z <;> cases n <;> cases h <;> cases c <;> rfl
@[simp] theorem flagsByte_n (z n h c : Bool) : (flagsByte z n h c).getLsbD 6 = n := by cases z <;> cases n <;> cases h <;> cases c <;> rfl
@[simp] theorem flagsByte_h (z n h c : Bool) : (flagsByte z n h c).getLsbD 5 = h := by cases z <;> cases n <;> cases h <;> cases c <;> rfl
@[simp] theorem flagsByte_c (z n h c : Bool) : (flagsByte z n h c).getLsbD 4 = c := by cases z <;> cases n <;> cases h <;> cases c <;> rfl

/-- Flags composed from the four bits have a zero low nibble. -/
@[simp] theorem flagsByte_low (z n h c : Bool) : flagsByte z n h c &&& 0x0F = 0 := by
  cases z <;> cases n <;> cases h <;> cases c <;> rfl

@[simp] theorem zFlag_setFlags (s : State) (z n h c : Bool) : zFlag (setFlags s z n h c) = z := flagsByte_z z n h c
@[simp] theorem nFlag_setFlags (s : State) (z n h c : Bool) : nFlag (setFlags s z n h c) = n := flagsByte_n z n h c
@[simp] theorem hFlag_setFlags (s : State) (z n h c : Bool) : hFlag (setFlags s z n h c) = h := flagsByte_h z n h c
@[simp] theorem cFlag_setFlags (s : State) (z n h c : Bool) : cFlag (setFlags s z n h c) = c := flagsByte_c z n h c

end Sys2Proof.Machine
end

