-- ==== Sys2Proof/Laws/Bus.lean ====
section
/-! SUPPORT. The CPU's bus: what a read answers and what a store reaches (20_memory R45 to R58), and the same for the
stack, a fetch, a request and an interrupt entry. -/

namespace Sys2Proof.Machine

/-! ## Addresses -/

theorem phys_eq_iff_of_io {a : Word} (k : Word) (h : 0xFE00 ≤ k.toNat) : phys a = phys k ↔ a = k := by
  have hk := k.isLt
  have ha := a.isLt
  constructor
  · intro e
    apply BitVec.eq_of_toNat_eq
    unfold phys at e
    split_ifs at e <;> omega
  · rintro rfl; rfl

theorem phys_ne_of_io {a k : Word} (h : 0xFE00 ≤ k.toNat) (hne : a ≠ k) : phys a ≠ phys k :=
  fun e => hne ((phys_eq_iff_of_io k h).mp e)

theorem raw_rawWrite_io (s : State) {a k : Word} (v : Byte) (h : 0xFE00 ≤ k.toNat) (hne : k ≠ a) :
    raw (rawWrite s a v) k = raw s k := by
  refine raw_rawWrite_ne s v fun e => hne ?_
  exact ((phys_eq_iff_of_io k h).mp e.symm).symm

/-! ## Reads (R45 to R51) -/

/-- A DMA locks every read outside high RAM out (R46). -/
theorem busRead_locked {s : State} {a : Word} (h : s.dmaRunning = true) (ha : inHram a = false) :
    busRead s a = 0xFF := by simp [busRead, h, ha]

/-- No PPU gate applies outside VRAM and OAM (R48, R49). -/
theorem gated_eq_false {s : State} {a : Word} (hv : inVram a = false) (ho : inOam a = false) : gated s a = false := by
  simp [gated, hv, ho]

/-- With the LCD off no PPU gate applies (R48, R49, R369). -/
theorem gated_lcd_off {s : State} (h : lcdOn s = false) (a : Word) : gated s a = false := by simp [gated, h]

theorem bootByte_of_ge {s : State} {a : Word} (h : 0x100 ≤ a.toNat) : bootByte s a = none := by
  unfold bootByte
  cases s.cfg.bootRom with
  | none => rfl
  | some rom => exact dif_neg (by omega)

theorem bootByte_of_disabled {s : State} (h : s.bootRomEnabled = false) (a : Word) : bootByte s a = none := by
  unfold bootByte
  cases s.cfg.bootRom with
  | none => rfl
  | some rom => exact dif_neg (by simp [h])

/-- An ungated read outside the shadow and the two computed registers is the stored byte (R45). -/
theorem busRead_raw {s : State} {a : Word} (hd : s.dmaRunning = false ∨ inHram a = true)
    (hl : a ≠ 0xFF44 ∨ s.cfg.testLogMode = false) (hg : gated s a = false) (hb : bootByte s a = none)
    (hj : a ≠ 0xFF00) : busRead s a = raw s a := by
  have h1 : (s.dmaRunning && !inHram a) = false := by rcases hd with h | h <;> simp [h]
  have h2 : (s.cfg.testLogMode && a == 0xFF44) = false := by
    rcases hl with h | h
    · rw [beq_false_of_ne h, Bool.and_false]
    · rw [h, Bool.false_and]
  unfold busRead
  rw [h1, if_neg Bool.false_ne_true, h2, if_neg Bool.false_ne_true, hg, if_neg Bool.false_ne_true, hb]
  exact if_neg hj

/-- A work RAM or high RAM byte reads as stored unless a DMA locks it out (R41, R45). -/
theorem busRead_ram {s : State} {a : Word} (ha : ramByte a = true) (hd : s.dmaRunning = false ∨ inHram a = true) :
    busRead s a = raw s a := by
  simp only [ramByte, inHram, Bool.or_eq_true, Bool.and_eq_true, decide_eq_true_eq] at ha
  have hne : ∀ k : Word, k.toNat < 0xC000 ∨ (0xDFFF < k.toNat ∧ k.toNat < 0xFF80) → a ≠ k := by
    rintro k hk rfl; omega
  refine busRead_raw hd (.inl (hne _ (by decide))) (gated_eq_false ?_ ?_) (bootByte_of_ge (by omega)) (hne _ (by decide))
  · simp [inVram]; omega
  · simp [inOam]; omega

/-! ## Stores (R52 to R58) -/

/-- A store to plain storage is a raw store (R52, last case). -/
theorem busWrite_plain {s : State} {a : Word} (h : plainStore a = true) (v : Byte) : busWrite s a v = rawWrite s a v := by
  simp only [plainStore, Bool.and_eq_true, decide_eq_true_eq, Bool.not_eq_true', bne_iff_ne, ne_eq] at h
  obtain ⟨⟨⟨⟨⟨⟨⟨⟨h0, hv⟩, ho⟩, h1⟩, h2⟩, h3⟩, h4⟩, h5⟩, h6⟩ := h
  have hr : ¬a.toNat ≤ 0x7FFF := by omega
  unfold busWrite
  rw [gated_eq_false hv ho, if_neg Bool.false_ne_true, if_neg hr, if_neg h1, if_neg h2, if_neg h3, if_neg h4, if_neg h5,
    if_neg h6]

/-- Work RAM and high RAM are plain storage (R41). -/
theorem plainStore_of_ram {a : Word} (h : ramByte a = true) : plainStore a = true := by
  simp only [ramByte, inHram, Bool.or_eq_true, Bool.and_eq_true, decide_eq_true_eq] at h
  have hne : ∀ k : Word, 0xDFFF < k.toNat ∧ k.toNat < 0xFF80 → a ≠ k := by rintro k hk rfl; omega
  simp only [plainStore, Bool.and_eq_true, decide_eq_true_eq, Bool.not_eq_true', bne_iff_ne, ne_eq]
  refine ⟨⟨⟨⟨⟨⟨⟨⟨by omega, ?_⟩, ?_⟩, hne _ (by decide)⟩, hne _ (by decide)⟩, hne _ (by decide)⟩, hne _ (by decide)⟩,
    hne _ (by decide)⟩, hne _ (by decide)⟩
  · simp [inVram]; omega
  · simp [inOam]; omega

/-- What one store can do: nothing, or the effect of exactly one case of R52. -/
theorem busWrite_cases (s : State) (a : Word) (v : Byte) :
    busWrite s a v = s ∨
    (a = 0xFF50 ∧ busWrite s a v = { rawWrite s 0xFF50 v with bootRomEnabled := false }) ∨
    (a = 0xFF46 ∧ busWrite s a v = dmaStart (rawWrite s 0xFF46 v) v) ∨
    (a = 0xFF04 ∧ busWrite s a v = resetDiv s) ∨
    (a = 0xFF41 ∧ busWrite s a v = rawWrite s 0xFF41 ((v &&& 0xF8) ||| (raw s 0xFF41 &&& 0x07))) ∨
    (a = 0xFF45 ∧ busWrite s a v =
      rawWrite (rawWrite s 0xFF45 v) 0xFF41 (withCoincidence (raw s 0xFF41) (s.ly == v.toNat))) ∨
    ((a ≠ 0xFF44 ∧ a ≠ 0xFF41 ∧ a ≠ 0xFF45 ∧ 0x8000 ≤ a.toNat) ∧ busWrite s a v = rawWrite s a v) := by
  unfold busWrite
  split_ifs with h1 h2 h3 h4 h5 h6 h7 h8
  · exact .inl rfl
  · exact .inl rfl
  · exact .inr (.inl ⟨h3, rfl⟩)
  · exact .inr (.inr (.inl ⟨h4, rfl⟩))
  · exact .inr (.inr (.inr (.inl ⟨h5, rfl⟩)))
  · exact .inl rfl
  · exact .inr (.inr (.inr (.inr (.inl ⟨h7, rfl⟩))))
  · exact .inr (.inr (.inr (.inr (.inr (.inl ⟨h8, rfl⟩)))))
  · exact .inr (.inr (.inr (.inr (.inr (.inr ⟨⟨h6, h7, h8, by omega⟩, rfl⟩)))))

/-- STAT and the LY mirror are no OAM bytes. -/
theorem raw_dmaStart_of_not_oam (s : State) (v : Byte) {k : Word} (hk : inOam k = false) :
    raw (dmaStart s v) k = raw s k := by
  have h : ¬(0xFE00 ≤ phys k ∧ phys k < 0xFE00 + 160) := by
    simp only [inOam, Bool.and_eq_false_iff, decide_eq_false_iff_not] at hk
    have := k.isLt
    unfold phys
    split_ifs <;> omega
  show (dmaCopy s.mem v 160 s.mem).read (phys k) = _
  rw [dmaCopy_read, if_neg h]
  rfl

/-- After a DMA start OAM byte `i` holds the source page's byte `i` as it was (R350). -/
theorem raw_dmaStart_oam (s : State) (v : Byte) {i : Nat} (hi : i < 160) :
    raw (dmaStart s v) (BitVec.ofNat 16 (0xFE00 + i)) = raw s (word v 0 + BitVec.ofNat 16 i) := by
  have hp : phys (BitVec.ofNat 16 (0xFE00 + i)) = 0xFE00 + i := by
    have : (BitVec.ofNat 16 (0xFE00 + i)).toNat = 0xFE00 + i := by simp; omega
    unfold phys
    rw [this, if_neg (by omega)]
  show (dmaCopy s.mem v 160 s.mem).read _ = s.mem.read _
  rw [hp, dmaCopy_read, if_pos (by omega), Nat.add_sub_cancel_left]

/-- A store leaves every byte it does not reach alone (R52 to R58). -/
theorem raw_busWrite_frame {s : State} {a k : Word} (v : Byte) (h : storeReaches a k = false) :
    raw (busWrite s a v) k = raw s k := by
  simp only [storeReaches, Bool.or_eq_false_iff, beq_eq_false_iff_ne, ne_eq, Bool.and_eq_false_iff] at h
  obtain ⟨⟨h1, h2⟩, h3⟩ := h
  rcases busWrite_cases s a v with e | ⟨rfl, e⟩ | ⟨rfl, e⟩ | ⟨rfl, e⟩ | ⟨rfl, e⟩ | ⟨rfl, e⟩ | ⟨-, e⟩ <;> rw [e]
  · exact raw_rawWrite_ne s v h1
  · have ho : inOam k = false := by simpa using h2
    rw [raw_dmaStart_of_not_oam _ _ ho, raw_rawWrite_ne s v h1]
  · exact raw_rawWrite_ne s 0 h1
  · exact raw_rawWrite_ne s _ h1
  · have hk : k ≠ 0xFF41 := by simpa using h3
    rw [raw_rawWrite_ne _ _ (phys_ne_of_io (by decide) hk), raw_rawWrite_ne s v h1]
  · exact raw_rawWrite_ne s v h1

/-! ## The stack (R135, R136) -/

theorem raw_push16_frame {s : State} {k : Word} (v : Word) (h1 : storeReaches (s.sp - 1) k = false)
    (h2 : storeReaches (s.sp - 2) k = false) : raw (push16 s v) k = raw s k := by
  show raw (busWrite (busWrite s (s.sp - 1) (hiByte v)) (s.sp - 2) (loByte v)) k = _
  rw [raw_busWrite_frame _ h2, raw_busWrite_frame _ h1]

/-! ## Fetching (R65) -/

theorem afterFetch_of_no_bug {s : State} (h : s.haltBug = false) : afterFetch s = { s with pc := s.pc + 1 } := by
  simp [afterFetch, h]

/-- The halt bug: PC stays and the bug is used up. -/
theorem afterFetch_of_bug {s : State} (h : s.haltBug = true) : afterFetch s = { s with haltBug := false } := by
  simp [afterFetch, h]

/-! ## Interrupts (R312 to R314) -/

/-- What the service can do: nothing, a wake-up, or one entry. -/
theorem serviceInterrupts_cases (s : State) :
    (pending s = 0 ∧ serviceInterrupts s = s) ∨
    (pending s ≠ 0 ∧ s.ime = false ∧ serviceInterrupts s = { s with halted := false }) ∨
    (pending s ≠ 0 ∧ s.ime = true ∧
      serviceInterrupts s = enterInterrupt { s with halted := false } (lowestBit (pending s))) := by
  by_cases hp : pending s = 0
  · exact .inl ⟨hp, if_pos hp⟩
  · by_cases hi : s.ime = true
    · exact .inr (.inr ⟨hp, hi, (if_neg hp).trans (if_pos hi)⟩)
    · exact .inr (.inl ⟨hp, Bool.eq_false_iff.mpr hi, (if_neg hp).trans (if_neg hi)⟩)

end Sys2Proof.Machine
end

