-- ==== Sys2Proof/Laws/Devices.lean ====
section
/-! SUPPORT. What a store, a request, the timer, the DMA counter, the serial tap and the PPU can do to storage and to the
invariant of 10_state R36: one lemma for each operation (60_exceptions R303, R340 to R343, R350 to R369). -/

namespace Sys2Proof.Machine

/-! ## STAT (R34, R58, R361, R363) -/

theorem stat_setMode_mode (x : Byte) (m : PpuMode) : ((x &&& 0xFC) ||| m.code) &&& 0x03 = m.code := by
  cases m <;> (revert x; decide +kernel)

theorem stat_setMode_coincidence (x : Byte) (m : PpuMode) : ((x &&& 0xFC) ||| m.code).getLsbD 2 = x.getLsbD 2 := by
  cases m <;> (revert x; decide +kernel)

theorem withCoincidence_mode (x : Byte) (e : Bool) : withCoincidence x e &&& 0x03 = x &&& 0x03 := by
  cases e <;> (revert x; decide +kernel)

theorem withCoincidence_bit (x : Byte) (e : Bool) : (withCoincidence x e).getLsbD 2 = e := by
  cases e <;> (revert x; decide +kernel)

theorem stat_store_mode (x v : Byte) : ((v &&& 0xF8) ||| (x &&& 0x07)) &&& 0x03 = x &&& 0x03 := by
  apply BitVec.eq_of_getLsbD_eq
  intro i hi
  interval_cases i <;> simp

theorem stat_store_coincidence (x v : Byte) : ((v &&& 0xF8) ||| (x &&& 0x07)).getLsbD 2 = x.getLsbD 2 := by simp

/-! ## The invariant of the registers the devices own -/

/-- R36 items 2, 4, 5 and 7, and the canonical form: what holds also in the middle of a PPU transition. -/
structure RegsOk (s : State) : Prop where
  mem : s.mem.wf
  ly : s.LyOk
  coincidence : s.CoincidenceOk
  sprites : s.SpritesOk
  boot : s.BootOk

/-- R36 items 2 to 5 and 7 and the canonical form. -/
structure DevicesOk (s : State) : Prop extends RegsOk s where
  mode : s.ModeOk
  vblank : s.VblankOk

theorem State.Inv.devicesOk {s : State} (h : s.Inv) : DevicesOk s :=
  { mem := h.mem, ly := h.ly, coincidence := h.coincidence, sprites := h.sprites, boot := h.boot, mode := h.mode,
    vblank := h.vblank }

/-- The invariant looks at storage, LY, the sprite list and the shadow only. -/
theorem RegsOk.congr {s t : State} (h : RegsOk s) (hm : t.mem = s.mem) (hl : t.ly = s.ly) (hs : t.sprites = s.sprites)
    (hb : t.bootRomEnabled = s.bootRomEnabled) (hc : t.cfg = s.cfg) : RegsOk t := by
  obtain ⟨h1, h2, h3, h4, h5⟩ := h
  constructor
  · rwa [hm]
  · rwa [State.LyOk, hl, raw_congr hm]
  · rwa [State.CoincidenceOk, hl, raw_congr hm, raw_congr hm]
  · rwa [State.SpritesOk, hs]
  · rwa [State.BootOk, hb, hc]

theorem DevicesOk.congr {s t : State} (h : DevicesOk s) (hm : t.mem = s.mem) (hl : t.ly = s.ly)
    (hs : t.sprites = s.sprites) (hb : t.bootRomEnabled = s.bootRomEnabled) (hc : t.cfg = s.cfg)
    (hp : t.ppuMode = s.ppuMode) : DevicesOk t :=
  { toRegsOk := h.toRegsOk.congr hm hl hs hb hc
    mode := by rw [State.ModeOk, hp, raw_congr hm]; exact h.mode
    vblank := by rw [State.VblankOk, hp, hl]; exact h.vblank }

/-- A raw store outside LY, STAT and LYC keeps the invariant. -/
theorem RegsOk.rawWrite {s : State} (h : RegsOk s) {a : Word} (v : Byte) (h1 : (0xFF44 : Word) ≠ a)
    (h2 : (0xFF41 : Word) ≠ a) (h3 : (0xFF45 : Word) ≠ a) : RegsOk (rawWrite s a v) := by
  refine ⟨rawWrite_wf h.mem a v, ⟨h.ly.1, ?_⟩, ?_, h.sprites, h.boot⟩
  · rw [raw_rawWrite_io s v (by decide) h1]; exact h.ly.2
  · rw [State.CoincidenceOk, raw_rawWrite_io s v (by decide) h2, raw_rawWrite_io s v (by decide) h3]
    exact h.coincidence

theorem DevicesOk.rawWrite {s : State} (h : DevicesOk s) {a : Word} (v : Byte) (h1 : (0xFF44 : Word) ≠ a)
    (h2 : (0xFF41 : Word) ≠ a) (h3 : (0xFF45 : Word) ≠ a) : DevicesOk (Machine.rawWrite s a v) :=
  { toRegsOk := h.toRegsOk.rawWrite v h1 h2 h3
    mode := by rw [State.ModeOk, raw_rawWrite_io s v (by decide) h2]; exact h.mode
    vblank := h.vblank }

/-! ## Requests (R311) -/

theorem raw_request_ne (s : State) (i : Nat) {k : Word} (h : 0xFE00 ≤ k.toNat) (hk : k ≠ 0xFF0F) :
    raw (request s i) k = raw s k := raw_rawWrite_io s _ h hk

/-- A request sets one bit of IF. -/
theorem raw_request_if (s : State) (i : Nat) : raw (request s i) 0xFF0F = raw s 0xFF0F ||| (1#8 <<< i) :=
  raw_rawWrite_self _ _ _

theorem RegsOk.request {s : State} (h : RegsOk s) (i : Nat) : RegsOk (request s i) :=
  h.rawWrite _ (by decide) (by decide) (by decide)

theorem DevicesOk.request {s : State} (h : DevicesOk s) (i : Nat) : DevicesOk (Machine.request s i) :=
  h.rawWrite _ (by decide) (by decide) (by decide)

/-- A request changes storage only. -/
theorem request_eq (s : State) (i : Nat) : ∃ m, request s i = { s with mem := m } := ⟨_, rfl⟩

theorem requestStat_cases (s : State) (b : Nat) :
    (raw s 0xFF41).getLsbD b = true ∧ requestStat s b = request s 1 ∨
    (raw s 0xFF41).getLsbD b = false ∧ requestStat s b = s := by
  unfold requestStat
  cases h : (raw s 0xFF41).getLsbD b
  · exact .inr ⟨rfl, rfl⟩
  · exact .inl ⟨rfl, rfl⟩

theorem RegsOk.requestStat {s : State} (h : RegsOk s) (b : Nat) : RegsOk (requestStat s b) := by
  rcases requestStat_cases s b with ⟨-, e⟩ | ⟨-, e⟩ <;> rw [e]
  · exact h.request 1
  · exact h

theorem DevicesOk.requestStat {s : State} (h : DevicesOk s) (b : Nat) : DevicesOk (Machine.requestStat s b) := by
  rcases requestStat_cases s b with ⟨-, e⟩ | ⟨-, e⟩ <;> rw [e]
  · exact h.request 1
  · exact h

/-- A STAT request changes storage only. -/
theorem requestStat_eq (s : State) (b : Nat) : ∃ m, requestStat s b = { s with mem := m } := by
  rcases requestStat_cases s b with ⟨-, e⟩ | ⟨-, e⟩
  · exact ⟨_, e⟩
  · exact ⟨s.mem, e⟩

/-! ## A CPU store keeps the invariant (R36, R52 to R58) -/

theorem DevicesOk.dmaStart {s : State} (h : DevicesOk s) (v : Byte) : DevicesOk (dmaStart s v) := by
  have hr : ∀ k : Word, inOam k = false → raw (Machine.dmaStart s v) k = raw s k := fun k hk =>
    raw_dmaStart_of_not_oam s v hk
  constructor
  · constructor
    · exact dmaCopy_wf _ _ _ (le_refl _) h.mem
    · exact ⟨h.ly.1, (congrArg BitVec.toNat (hr _ rfl)).trans h.ly.2⟩
    · rw [State.CoincidenceOk, hr _ rfl, hr _ rfl]; exact h.coincidence
    · exact h.sprites
    · exact h.boot
  · rw [State.ModeOk, hr _ rfl]; exact h.mode
  · exact h.vblank

theorem DevicesOk.busWrite {s : State} (h : DevicesOk s) (a : Word) (v : Byte) : DevicesOk (busWrite s a v) := by
  rcases busWrite_cases s a v with e | ⟨-, e⟩ | ⟨-, e⟩ | ⟨-, e⟩ | ⟨-, e⟩ | ⟨-, e⟩ | ⟨⟨h1, h2, h3, -⟩, e⟩ <;> rw [e]
  · exact h
  · have h' := h.rawWrite (a := 0xFF50) v (by decide) (by decide) (by decide)
    exact
      { mem := h'.mem, ly := h'.ly, coincidence := h'.coincidence, sprites := h'.sprites
        boot := fun hb => absurd hb Bool.false_ne_true, mode := h'.mode, vblank := h'.vblank }
  · exact (h.rawWrite (a := 0xFF46) v (by decide) (by decide) (by decide)).dmaStart v
  · exact (h.rawWrite (a := 0xFF04) 0 (by decide) (by decide) (by decide)).congr rfl rfl rfl rfl rfl rfl
  · refine { mem := rawWrite_wf h.mem _ _, ly := ⟨h.ly.1, ?_⟩, coincidence := ?_, sprites := h.sprites, boot := h.boot,
             mode := ?_, vblank := h.vblank }
    · rw [raw_rawWrite_io s _ (by decide) (by decide)]; exact h.ly.2
    · rw [State.CoincidenceOk, raw_rawWrite_self, stat_store_coincidence,
        raw_rawWrite_io s _ (by decide) (by decide)]
      exact h.coincidence
    · rw [State.ModeOk, raw_rawWrite_self, stat_store_mode]; exact h.mode
  · refine { mem := rawWrite_wf (rawWrite_wf h.mem _ _) _ _, ly := ⟨h.ly.1, ?_⟩, coincidence := ?_, sprites := h.sprites,
             boot := h.boot, mode := ?_, vblank := h.vblank }
    · rw [raw_rawWrite_io _ _ (by decide) (by decide), raw_rawWrite_io s _ (by decide) (by decide)]; exact h.ly.2
    · rw [State.CoincidenceOk, raw_rawWrite_self, withCoincidence_bit, raw_rawWrite_io _ _ (by decide) (by decide),
        raw_rawWrite_self]
      rfl
    · rw [State.ModeOk, raw_rawWrite_self, withCoincidence_mode]; exact h.mode
  · exact h.rawWrite v (Ne.symm h1) (Ne.symm h2) (Ne.symm h3)

theorem DevicesOk.push16 {s : State} (h : DevicesOk s) (v : Word) : DevicesOk (push16 s v) :=
  ((h.busWrite _ _).busWrite _ _).congr rfl rfl rfl rfl rfl rfl

theorem DevicesOk.enterInterrupt {s : State} (h : DevicesOk s) (i : Nat) : DevicesOk (enterInterrupt s i) := by
  let s1 : State := { s with ime := false, imeDelay := if s.cfg.eiDelay then 0 else s.imeDelay }
  have h1 : DevicesOk s1 := h.congr rfl rfl rfl rfl rfl rfl
  exact ((h1.push16 s1.pc).rawWrite (a := 0xFF0F) _ (by decide) (by decide) (by decide)).congr rfl rfl rfl rfl rfl rfl

theorem DevicesOk.serviceInterrupts {s : State} (h : DevicesOk s) : DevicesOk (serviceInterrupts s) := by
  have h1 : DevicesOk { s with halted := false } := h.congr rfl rfl rfl rfl rfl rfl
  rcases serviceInterrupts_cases s with ⟨-, e⟩ | ⟨-, -, e⟩ | ⟨-, -, e⟩ <;> rw [e]
  · exact h
  · exact h1
  · exact h1.enterInterrupt _

/-- A store leaves the timer's accumulators as they are or clears both (R57). -/
theorem busWrite_timer (s : State) (a : Word) (v : Byte) :
    ((busWrite s a v).divAcc = s.divAcc ∧ (busWrite s a v).timaAcc = s.timaAcc) ∨
    ((busWrite s a v).divAcc = 0 ∧ (busWrite s a v).timaAcc = 0) := by
  rcases busWrite_cases s a v with e | ⟨-, e⟩ | ⟨-, e⟩ | ⟨-, e⟩ | ⟨-, e⟩ | ⟨-, e⟩ | ⟨-, e⟩ <;> rw [e]
  · exact .inl ⟨rfl, rfl⟩
  · exact .inl ⟨rfl, rfl⟩
  · exact .inl ⟨rfl, rfl⟩
  · exact .inr ⟨rfl, rfl⟩
  · exact .inl ⟨rfl, rfl⟩
  · exact .inl ⟨rfl, rfl⟩
  · exact .inl ⟨rfl, rfl⟩

/-- A store leaves the DMA lockout as it is or starts it at 0 (R56). -/
theorem busWrite_dma (s : State) (a : Word) (v : Byte) :
    ((busWrite s a v).dmaRunning = s.dmaRunning ∧ (busWrite s a v).dmaCounter = s.dmaCounter) ∨
    ((busWrite s a v).dmaRunning = true ∧ (busWrite s a v).dmaCounter = 0) := by
  rcases busWrite_cases s a v with e | ⟨-, e⟩ | ⟨-, e⟩ | ⟨-, e⟩ | ⟨-, e⟩ | ⟨-, e⟩ | ⟨-, e⟩ <;> rw [e]
  · exact .inl ⟨rfl, rfl⟩
  · exact .inl ⟨rfl, rfl⟩
  · exact .inr ⟨rfl, rfl⟩
  · exact .inl ⟨rfl, rfl⟩
  · exact .inl ⟨rfl, rfl⟩
  · exact .inl ⟨rfl, rfl⟩
  · exact .inl ⟨rfl, rfl⟩

/-- A store never turns the shadow on (R22, R55). -/
theorem busWrite_boot (s : State) (a : Word) (v : Byte) (h : s.bootRomEnabled = false) :
    (busWrite s a v).bootRomEnabled = false := by
  rcases busWrite_cases s a v with e | ⟨-, e⟩ | ⟨-, e⟩ | ⟨-, e⟩ | ⟨-, e⟩ | ⟨-, e⟩ | ⟨-, e⟩ <;> rw [e]
  · exact h
  · exact h
  · exact h
  · exact h
  · exact h
  · exact h

/-! ## The timer (R340 to R343) -/

theorem DevicesOk.divStep {s : State} (h : DevicesOk s) (c : Nat) : DevicesOk (divStep s c) :=
  (h.rawWrite (a := 0xFF04) _ (by decide) (by decide) (by decide)).congr rfl rfl rfl rfl rfl rfl

theorem DevicesOk.timaTick {s : State} (h : DevicesOk s) : DevicesOk (timaTick s) := by
  unfold Machine.timaTick
  split
  · exact (h.rawWrite _ (by decide) (by decide) (by decide)).request 2
  · exact h.rawWrite _ (by decide) (by decide) (by decide)

/-- A tick of TIMA changes storage only. -/
theorem timaTick_eq (s : State) : ∃ m, timaTick s = { s with mem := m } := by
  unfold timaTick
  split
  · exact ⟨_, rfl⟩
  · exact ⟨_, rfl⟩

theorem DevicesOk.timaTicks {s : State} (n : Nat) (h : DevicesOk s) : DevicesOk (timaTicks n s) := by
  induction n generalizing s with
  | zero => exact h
  | succ n ih => exact ih h.timaTick

/-- The ticks of TIMA change storage only. -/
theorem timaTicks_eq (n : Nat) (s : State) : ∃ m, timaTicks n s = { s with mem := m } := by
  induction n generalizing s with
  | zero => exact ⟨s.mem, rfl⟩
  | succ n ih =>
    obtain ⟨m, h⟩ := timaTick_eq s
    obtain ⟨m', h'⟩ := ih (timaTick s)
    exact ⟨m', by rw [timaTicks, h', h]⟩

/-- The TIMA step changes storage and its own accumulator only. -/
theorem timaStep_eq (s : State) (c : Nat) : ∃ m n, timaStep s c = { s with mem := m, timaAcc := n } := by
  unfold timaStep
  split
  · obtain ⟨m, h⟩ := timaTicks_eq ((s.timaAcc + c) / timaThreshold (raw s 0xFF07)) s
    exact ⟨m, _, by dsimp only; rw [h]⟩
  · exact ⟨s.mem, s.timaAcc, rfl⟩

theorem timaThreshold_pos (tac : Byte) : 0 < timaThreshold tac ∧ timaThreshold tac ≤ 1024 := by
  unfold timaThreshold
  split <;> split <;> omega

/-- The timer step changes storage and the two accumulators only. -/
theorem timerStep_eq (s : State) (c : Nat) :
    ∃ m n, timerStep s c = { s with mem := m, divAcc := (s.divAcc + c) % 256, timaAcc := n } := by
  obtain ⟨m, n, h⟩ := timaStep_eq (divStep s c) c
  exact ⟨m, n, h⟩

theorem DevicesOk.timaStep {s : State} (h : DevicesOk s) (c : Nat) : DevicesOk (timaStep s c) := by
  unfold Machine.timaStep
  split
  · exact (h.timaTicks _).congr rfl rfl rfl rfl rfl rfl
  · exact h

theorem DevicesOk.timerStep {s : State} (h : DevicesOk s) (c : Nat) : DevicesOk (timerStep s c) :=
  (h.divStep c).timaStep c

/-- The accumulators stay in their bounds (R340). -/
theorem timerStep_timerOk {s : State} (h : s.TimerOk) (c : Nat) : (timerStep s c).TimerOk := by
  constructor
  · obtain ⟨m, n, e⟩ := timerStep_eq s c
    rw [e]
    exact Nat.mod_lt _ (by decide)
  · unfold timerStep timaStep
    split
    · exact Nat.lt_of_lt_of_le (Nat.mod_lt _ (timaThreshold_pos _).1) (timaThreshold_pos _).2
    · exact h.2

/-! ## The lockout and the serial tap (R303, R351) -/

theorem DevicesOk.dmaStep {s : State} (h : DevicesOk s) (c : Nat) : DevicesOk (dmaStep s c) := by
  unfold Machine.dmaStep
  split
  · exact h.congr rfl rfl rfl rfl rfl rfl
  · exact h

/-- The DMA step changes the lockout and its counter only. -/
theorem dmaStep_eq (s : State) (c : Nat) : ∃ r n, dmaStep s c = { s with dmaRunning := r, dmaCounter := n } := by
  unfold dmaStep
  split
  · exact ⟨_, _, rfl⟩
  · exact ⟨s.dmaRunning, s.dmaCounter, rfl⟩

theorem dmaStep_dmaOk {s : State} (h : s.DmaOk) (c : Nat) : (dmaStep s c).DmaOk := by
  unfold dmaStep
  split
  · refine ⟨Nat.min_le_right _ _, fun hr => ?_⟩
    have h1 : min (s.dmaCounter + c) 640 ≠ 640 := by simpa using hr
    have h2 : min (s.dmaCounter + c) 640 ≤ 640 := Nat.min_le_right _ _
    exact Nat.lt_of_le_of_ne h2 h1
  · exact h

theorem DevicesOk.serialTap {s : State} (h : DevicesOk s) : DevicesOk (serialTap s) := by
  unfold Machine.serialTap
  split
  · exact (h.rawWrite (a := 0xFF02) 0 (by decide) (by decide) (by decide)).congr rfl rfl rfl rfl rfl rfl
  · exact h

/-- The serial tap changes storage and the serial output only. -/
theorem serialTap_eq (s : State) : ∃ m o, serialTap s = { s with mem := m, serialOut := o } := by
  unfold serialTap
  split
  · exact ⟨_, _, rfl⟩
  · exact ⟨s.mem, s.serialOut, rfl⟩

/-! ## The OAM scan (R364) -/

theorem mem_insertByX {u sp : Sprite} {ts : List Sprite} : u ∈ insertByX sp ts ↔ u = sp ∨ u ∈ ts := by
  induction ts with
  | nil => simp [insertByX]
  | cons t ts ih =>
    by_cases h : sp.x.toNat ≤ t.x.toNat
    · rw [insertByX, if_pos h, List.mem_cons]
    · rw [insertByX, if_neg h, List.mem_cons, ih, List.mem_cons]; tauto

theorem length_insertByX (sp : Sprite) (ts : List Sprite) : (insertByX sp ts).length = ts.length + 1 := by
  induction ts with
  | nil => rfl
  | cons t ts ih => by_cases h : sp.x.toNat ≤ t.x.toNat <;> simp [insertByX, h, ih]

theorem pairwise_insertByX {sp : Sprite} {ts : List Sprite}
    (h : ts.Pairwise (fun u v => u.x.toNat ≤ v.x.toNat)) :
    (insertByX sp ts).Pairwise (fun u v => u.x.toNat ≤ v.x.toNat) := by
  induction ts with
  | nil => exact List.pairwise_singleton _ _
  | cons t ts ih =>
    obtain ⟨h1, h2⟩ := List.pairwise_cons.mp h
    by_cases hx : sp.x.toNat ≤ t.x.toNat
    · rw [insertByX, if_pos hx, List.pairwise_cons]
      refine ⟨fun u hu => ?_, h⟩
      rcases List.mem_cons.mp hu with rfl | hu
      · exact hx
      · exact Nat.le_trans hx (h1 u hu)
    · rw [insertByX, if_neg hx, List.pairwise_cons]
      refine ⟨fun u hu => ?_, ih h2⟩
      rcases mem_insertByX.mp hu with rfl | hu
      · omega
      · exact h1 u hu

theorem sortByX_pairwise (ts : List Sprite) : (sortByX ts).Pairwise (fun u v => u.x.toNat ≤ v.x.toNat) := by
  induction ts with
  | nil => exact List.Pairwise.nil
  | cons sp ts ih => exact pairwise_insertByX ih

theorem sortByX_length (ts : List Sprite) : (sortByX ts).length = ts.length := by
  induction ts with
  | nil => rfl
  | cons sp ts ih => rw [sortByX, length_insertByX, ih, List.length_cons]

theorem mem_sortByX {u : Sprite} {ts : List Sprite} : u ∈ sortByX ts ↔ u ∈ ts := by
  induction ts with
  | nil => rfl
  | cons sp ts ih => rw [sortByX, mem_insertByX, ih, List.mem_cons]

theorem oamScan_spritesOk (s : State) : (oamScan s).SpritesOk :=
  ⟨by rw [oamScan, sortByX_length]; exact List.length_take_le _ _, sortByX_pairwise _⟩

/-! ## The sequencer (R360 to R363) -/

theorem RegsOk.setMode {s : State} (h : RegsOk s) (m : PpuMode) : RegsOk (setMode s m) := by
  refine ⟨rawWrite_wf h.mem _ _, ⟨h.ly.1, ?_⟩, ?_, h.sprites, h.boot⟩
  · exact (congrArg BitVec.toNat (raw_rawWrite_io s _ (k := 0xFF44) (by decide) (by decide))).trans h.ly.2
  · have h1 : raw (Machine.setMode s m) 0xFF41 = (raw s 0xFF41 &&& 0xFC) ||| m.code := raw_rawWrite_self s _ _
    have h2 : raw (Machine.setMode s m) 0xFF45 = raw s 0xFF45 := raw_rawWrite_io s _ (by decide) (by decide)
    rw [State.CoincidenceOk, h1, h2, stat_setMode_coincidence]
    exact h.coincidence

/-- A mode change changes storage and the mode only. -/
theorem setMode_eq (s : State) (m : PpuMode) : ∃ mem, setMode s m = { s with mem := mem, ppuMode := m } := ⟨_, rfl⟩

/-- A mode change writes the mode into STAT. -/
theorem setMode_modeOk (s : State) (m : PpuMode) : (setMode s m).ModeOk := by
  have h1 : raw (setMode s m) 0xFF41 = (raw s 0xFF41 &&& 0xFC) ||| m.code := raw_rawWrite_self s _ _
  rw [State.ModeOk, h1, stat_setMode_mode]
  rfl

/-- What a change of LY does (R363): one of two results, by the comparison with LYC. -/
theorem setLy_cases (s : State) (n : Nat) :
    let s1 : State := { rawWrite s 0xFF44 (BitVec.ofNat 8 n) with ly := n }
    (n = (raw s 0xFF45).toNat ∧ setLy s n = requestStat (rawWrite s1 0xFF41 (withCoincidence (raw s 0xFF41) true)) 6) ∨
    (n ≠ (raw s 0xFF45).toNat ∧ setLy s n = rawWrite s1 0xFF41 (withCoincidence (raw s 0xFF41) false)) := by
  intro s1
  have h5 : raw s1 0xFF45 = raw s 0xFF45 :=
    raw_rawWrite_io s (BitVec.ofNat 8 n) (k := 0xFF45) (by decide) (by decide)
  have h1 : raw s1 0xFF41 = raw s 0xFF41 :=
    raw_rawWrite_io s (BitVec.ofNat 8 n) (k := 0xFF41) (by decide) (by decide)
  have hu : setLy s n =
      if n == (raw s1 0xFF45).toNat then
        requestStat (rawWrite s1 0xFF41 (withCoincidence (raw s1 0xFF41) (n == (raw s1 0xFF45).toNat))) 6
      else rawWrite s1 0xFF41 (withCoincidence (raw s1 0xFF41) (n == (raw s1 0xFF45).toNat)) := rfl
  rw [h5, h1] at hu
  by_cases h : n = (raw s 0xFF45).toNat
  · refine .inl ⟨h, ?_⟩
    rw [hu, beq_iff_eq.mpr h, if_pos rfl]
  · refine .inr ⟨h, ?_⟩
    rw [hu, beq_eq_false_iff_ne.mpr h, if_neg Bool.false_ne_true]

/-- A change of LY to a line number establishes items 2 and 4 of R36. -/
theorem RegsOk.setLy {s : State} (hm : s.mem.wf) (hs : s.SpritesOk) (hb : s.BootOk) {n : Nat} (hn : n ≤ 153) :
    RegsOk (Machine.setLy s n) := by
  have key : ∀ e : Bool, e = (n == (raw s 0xFF45).toNat) →
      RegsOk (Machine.rawWrite { Machine.rawWrite s 0xFF44 (BitVec.ofNat 8 n) with ly := n } 0xFF41
        (withCoincidence (raw s 0xFF41) e)) := by
    intro e he
    refine ⟨rawWrite_wf (rawWrite_wf hm 0xFF44 (BitVec.ofNat 8 n)) _ _, ⟨hn, ?_⟩, ?_, hs, hb⟩
    · rw [raw_rawWrite_io _ _ (by decide) (by decide)]
      have h1 : raw { Machine.rawWrite s 0xFF44 (BitVec.ofNat 8 n) with ly := n } 0xFF44 = BitVec.ofNat 8 n :=
        raw_rawWrite_self s _ _
      rw [h1, BitVec.toNat_ofNat, Nat.mod_eq_of_lt (by omega)]
      rfl
    · have h5 : raw { Machine.rawWrite s 0xFF44 (BitVec.ofNat 8 n) with ly := n } 0xFF45 = raw s 0xFF45 :=
        raw_rawWrite_io s (BitVec.ofNat 8 n) (k := 0xFF45) (by decide) (by decide)
      rw [State.CoincidenceOk, raw_rawWrite_self, withCoincidence_bit, raw_rawWrite_io _ _ (by decide) (by decide), h5,
        he]
      rfl
  rcases setLy_cases s n with ⟨h, e⟩ | ⟨h, e⟩ <;> rw [e]
  · exact (key true (beq_iff_eq.mpr h).symm).requestStat 6
  · exact key false (beq_eq_false_iff_ne.mpr h).symm

/-- A change of LY changes storage and LY only. -/
theorem setLy_eq (s : State) (n : Nat) : ∃ m, setLy s n = { s with mem := m, ly := n } := by
  rcases setLy_cases s n with ⟨-, e⟩ | ⟨-, e⟩ <;> rw [e]
  · obtain ⟨m, h⟩ := requestStat_eq
      (rawWrite { rawWrite s 0xFF44 (BitVec.ofNat 8 n) with ly := n } 0xFF41 (withCoincidence (raw s 0xFF41) true)) 6
    exact ⟨m, h⟩
  · exact ⟨_, rfl⟩

@[simp] theorem setLy_ly (s : State) (n : Nat) : (setLy s n).ly = n := by
  obtain ⟨m, h⟩ := setLy_eq s n
  rw [h]

@[simp] theorem setLy_ppuMode (s : State) (n : Nat) : (setLy s n).ppuMode = s.ppuMode := by
  obtain ⟨m, h⟩ := setLy_eq s n
  rw [h]

theorem setLy_mode {s : State} (h : s.ModeOk) (n : Nat) : (setLy s n).ModeOk := by
  have key : ∀ e : Bool, (rawWrite { rawWrite s 0xFF44 (BitVec.ofNat 8 n) with ly := n } 0xFF41
      (withCoincidence (raw s 0xFF41) e)).ModeOk := fun e => by
    rw [State.ModeOk, raw_rawWrite_self, withCoincidence_mode]; exact h
  rcases setLy_cases s n with ⟨-, e⟩ | ⟨-, e⟩ <;> rw [e]
  · rcases requestStat_cases (rawWrite { rawWrite s 0xFF44 (BitVec.ofNat 8 n) with ly := n } 0xFF41
      (withCoincidence (raw s 0xFF41) true)) 6 with ⟨-, e⟩ | ⟨-, e⟩ <;> rw [e]
    · rw [State.ModeOk, raw_request_ne _ _ (by decide) (by decide)]; exact key true
    · exact key true
  · exact key false

/-- What leaving a mode can do (R360): one of six transitions. -/
theorem leaveMode_cases (s : State) :
    (s.ppuMode = .oamScan ∧ leaveMode s = setMode (oamScan s) .drawing) ∨
    (s.ppuMode = .drawing ∧ leaveMode s = requestStat (setMode (renderScanline s) .hblank) 3) ∨
    (s.ppuMode = .hblank ∧ s.ly + 1 = 144 ∧
      leaveMode s = requestStat (request (setMode (setLy s (s.ly + 1)) .vblank) 0) 4) ∨
    (s.ppuMode = .hblank ∧ s.ly + 1 ≠ 144 ∧ leaveMode s = requestStat (setMode (setLy s (s.ly + 1)) .oamScan) 5) ∨
    (s.ppuMode = .vblank ∧ s.ly = 153 ∧ leaveMode s = requestStat (setMode (setLy s 0) .oamScan) 5) ∨
    (s.ppuMode = .vblank ∧ s.ly ≠ 153 ∧ leaveMode s = setLy s (s.ly + 1)) := by
  have hl : (setLy s (s.ly + 1)).ly = s.ly + 1 := setLy_ly _ _
  unfold leaveMode
  cases hm : s.ppuMode with
  | oamScan => exact .inl ⟨rfl, rfl⟩
  | drawing => exact .inr (.inl ⟨rfl, rfl⟩)
  | hblank =>
    dsimp only
    rw [hl]
    by_cases h : s.ly + 1 = 144
    · exact .inr (.inr (.inl ⟨rfl, h, if_pos h⟩))
    · exact .inr (.inr (.inr (.inl ⟨rfl, h, if_neg h⟩)))
  | vblank =>
    by_cases h : s.ly = 153
    · exact .inr (.inr (.inr (.inr (.inl ⟨rfl, h, if_pos h⟩))))
    · exact .inr (.inr (.inr (.inr (.inr ⟨rfl, h, if_neg h⟩))))

/-- The end of a transition: the mode written into STAT, with LY where the mode belongs. -/
theorem RegsOk.enter {s : State} (h : RegsOk s) {m : PpuMode} (hv : m = .vblank ↔ 144 ≤ s.ly) :
    DevicesOk (Machine.setMode s m) :=
  { toRegsOk := h.setMode m, mode := setMode_modeOk s m, vblank := hv }

theorem DevicesOk.leaveMode {s : State} (h : DevicesOk s) : DevicesOk (leaveMode s) := by
  have hv := h.vblank
  have hly := h.ly.1
  rcases leaveMode_cases s with ⟨hm, e⟩ | ⟨hm, e⟩ | ⟨hm, hl, e⟩ | ⟨hm, hl, e⟩ | ⟨hm, hl, e⟩ | ⟨hm, hl, e⟩ <;>
    rw [e] <;> rw [State.VblankOk, hm] at hv
  · have h1 : RegsOk (oamScan s) := ⟨h.mem, h.ly, h.coincidence, oamScan_spritesOk s, h.boot⟩
    exact h1.enter (m := .drawing) ⟨fun e => (nomatch e), fun e => (nomatch hv.mpr e)⟩
  · have h1 : RegsOk (renderScanline s) := h.toRegsOk.congr rfl rfl rfl rfl rfl
    exact (h1.enter (m := .hblank) ⟨fun e => (nomatch e), fun e => (nomatch hv.mpr e)⟩).requestStat 3
  · have h1 : RegsOk (setLy s (s.ly + 1)) := RegsOk.setLy h.mem h.sprites h.boot (by omega)
    exact ((h1.enter (m := .vblank) ⟨fun _ => by rw [setLy_ly]; exact Nat.le_of_eq hl.symm, fun _ => rfl⟩).request
      0).requestStat 4
  · have hlt : ¬144 ≤ s.ly := fun e => nomatch hv.mpr e
    have h1 : RegsOk (setLy s (s.ly + 1)) := RegsOk.setLy h.mem h.sprites h.boot (by omega)
    refine (h1.enter (m := .oamScan) ⟨fun e => (nomatch e), fun e => ?_⟩).requestStat 5
    rw [setLy_ly] at e
    omega
  · have h1 : RegsOk (setLy s 0) := RegsOk.setLy h.mem h.sprites h.boot (by omega)
    refine (h1.enter (m := .oamScan) ⟨fun e => (nomatch e), fun e => ?_⟩).requestStat 5
    rw [setLy_ly] at e
    omega
  · have h1 : RegsOk (setLy s (s.ly + 1)) := RegsOk.setLy h.mem h.sprites h.boot (by omega)
    have h2 := hv.mp rfl
    exact { toRegsOk := h1, mode := setLy_mode h.mode _
            vblank := by rw [State.VblankOk, setLy_ly, setLy_ppuMode]; exact ⟨fun _ => by omega, fun _ => hm⟩ }

/-- A transition changes storage, the mode, LY, the sprite list and the pixel output only. -/
theorem leaveMode_eq (s : State) :
    ∃ m p l sp px, leaveMode s = { s with mem := m, ppuMode := p, ly := l, sprites := sp, pixelOut := px } := by
  rcases leaveMode_cases s with ⟨-, e⟩ | ⟨-, e⟩ | ⟨-, -, e⟩ | ⟨-, -, e⟩ | ⟨-, -, e⟩ | ⟨-, -, e⟩ <;> rw [e]
  · obtain ⟨m, h⟩ := setMode_eq (oamScan s) .drawing
    exact ⟨m, .drawing, s.ly, (oamScan s).sprites, s.pixelOut, h⟩
  · obtain ⟨m, h⟩ := setMode_eq (renderScanline s) .hblank
    obtain ⟨m', h'⟩ := requestStat_eq (setMode (renderScanline s) .hblank) 3
    exact ⟨m', .hblank, s.ly, s.sprites, (renderScanline s).pixelOut, by rw [h', h]; rfl⟩
  · obtain ⟨m, h⟩ := setLy_eq s (s.ly + 1)
    obtain ⟨m1, h1⟩ := setMode_eq (setLy s (s.ly + 1)) .vblank
    obtain ⟨m2, h2⟩ := request_eq (setMode (setLy s (s.ly + 1)) .vblank) 0
    obtain ⟨m3, h3⟩ := requestStat_eq (request (setMode (setLy s (s.ly + 1)) .vblank) 0) 4
    exact ⟨m3, .vblank, s.ly + 1, s.sprites, s.pixelOut, by rw [h3, h2, h1, h]⟩
  · obtain ⟨m, h⟩ := setLy_eq s (s.ly + 1)
    obtain ⟨m1, h1⟩ := setMode_eq (setLy s (s.ly + 1)) .oamScan
    obtain ⟨m2, h2⟩ := requestStat_eq (setMode (setLy s (s.ly + 1)) .oamScan) 5
    exact ⟨m2, .oamScan, s.ly + 1, s.sprites, s.pixelOut, by rw [h2, h1, h]⟩
  · obtain ⟨m, h⟩ := setLy_eq s 0
    obtain ⟨m1, h1⟩ := setMode_eq (setLy s 0) .oamScan
    obtain ⟨m2, h2⟩ := requestStat_eq (setMode (setLy s 0) .oamScan) 5
    exact ⟨m2, .oamScan, 0, s.sprites, s.pixelOut, by rw [h2, h1, h]⟩
  · obtain ⟨m, h⟩ := setLy_eq s (s.ly + 1)
    exact ⟨m, s.ppuMode, s.ly + 1, s.sprites, s.pixelOut, h⟩

@[simp] theorem leaveMode_ppuCounter (s : State) : (leaveMode s).ppuCounter = s.ppuCounter := by
  obtain ⟨m, p, l, sp, px, h⟩ := leaveMode_eq s
  rw [h]

theorem duration_ge (m : PpuMode) : 80 ≤ m.duration := by cases m <;> decide

theorem DevicesOk.ppuLoop {s : State} (fuel : Nat) (h : DevicesOk s) : DevicesOk (ppuLoop fuel s) := by
  induction fuel generalizing s with
  | zero => exact h
  | succ n ih =>
    unfold Machine.ppuLoop
    split
    · refine ih (DevicesOk.leaveMode ?_)
      exact h.congr rfl rfl rfl rfl rfl rfl
    · exact h

/-- The PPU changes storage and its own state only. -/
theorem ppuLoop_eq (fuel : Nat) (s : State) :
    ∃ m p n l sp px, ppuLoop fuel s =
      { s with mem := m, ppuMode := p, ppuCounter := n, ly := l, sprites := sp, pixelOut := px } := by
  induction fuel generalizing s with
  | zero => exact ⟨s.mem, s.ppuMode, s.ppuCounter, s.ly, s.sprites, s.pixelOut, rfl⟩
  | succ n ih =>
    unfold ppuLoop
    split
    · obtain ⟨m, p, l, sp, px, h⟩ := leaveMode_eq { s with ppuCounter := s.ppuCounter - s.ppuMode.duration }
      rw [h]
      exact ih _
    · exact ⟨s.mem, s.ppuMode, s.ppuCounter, s.ly, s.sprites, s.pixelOut, rfl⟩

/-- With enough fuel the loop of R360 ends below the mode's duration. -/
theorem ppuLoop_counterOk (fuel : Nat) {s : State} (h : s.ppuCounter < 80 * fuel) : (ppuLoop fuel s).PpuCounterOk := by
  induction fuel generalizing s with
  | zero => omega
  | succ n ih =>
    unfold ppuLoop
    split
    · have hd := duration_ge s.ppuMode
      refine ih ?_
      rw [leaveMode_ppuCounter]
      dsimp only
      omega
    · rename_i hd
      exact Nat.not_le.mp hd

theorem DevicesOk.ppuStep {s : State} (h : DevicesOk s) (c : Nat) : DevicesOk (ppuStep s c) :=
  DevicesOk.ppuLoop _ (h.congr rfl rfl rfl rfl rfl rfl)

theorem ppuStep_counterOk (s : State) (c : Nat) : (ppuStep s c).PpuCounterOk := by
  refine ppuLoop_counterOk _ ?_
  show s.ppuCounter + c < 80 * ((s.ppuCounter + c) / 80 + 1)
  omega

theorem ppuStep_eq (s : State) (c : Nat) :
    ∃ m p n l sp px, ppuStep s c =
      { s with mem := m, ppuMode := p, ppuCounter := n, ly := l, sprites := sp, pixelOut := px } :=
  ppuLoop_eq _ _

/-- Where a step's cycles do not use the mode up the loop does nothing; where they use up one mode, it makes one
transition (R360, "at most one branch fires per step"). -/
theorem ppuStep_cases {s : State} (h : s.PpuCounterOk) {c : Nat} (hc : c ≤ 44) :
    (s.ppuCounter + c < s.ppuMode.duration ∧ ppuStep s c = { s with ppuCounter := s.ppuCounter + c }) ∨
    (s.ppuMode.duration ≤ s.ppuCounter + c ∧
      ppuStep s c = leaveMode { s with ppuCounter := s.ppuCounter + c - s.ppuMode.duration }) := by
  unfold ppuStep
  by_cases hd : s.ppuMode.duration ≤ s.ppuCounter + c
  · refine .inr ⟨hd, ?_⟩
    obtain ⟨k, hk⟩ : ∃ k, (s.ppuCounter + c) / 80 + 1 = k + 2 := by
      have := duration_ge s.ppuMode
      exact ⟨(s.ppuCounter + c) / 80 - 1, by omega⟩
    dsimp only
    rw [hk]
    show (if s.ppuMode.duration ≤ s.ppuCounter + c then _ else _) = _
    rw [if_pos hd]
    unfold ppuLoop
    rw [if_neg]
    have h1 := duration_ge (leaveMode { s with ppuCounter := s.ppuCounter + c - s.ppuMode.duration }).ppuMode
    have h2 : (leaveMode { s with ppuCounter := s.ppuCounter + c - s.ppuMode.duration }).ppuCounter =
        s.ppuCounter + c - s.ppuMode.duration := leaveMode_ppuCounter _
    have h3 : s.ppuCounter < s.ppuMode.duration := h
    dsimp only
    omega
  · refine .inl ⟨by omega, ?_⟩
    dsimp only
    show (if s.ppuMode.duration ≤ s.ppuCounter + c then _ else _) = _
    rw [if_neg hd]

/-! ## All of them (R300) -/

theorem DevicesOk.advanceDevices {s : State} (h : DevicesOk s) : DevicesOk (advanceDevices s) :=
  ((((h.ppuStep s.cycles).timerStep s.cycles).dmaStep s.cycles).serialTap).congr rfl rfl rfl rfl rfl rfl

end Sys2Proof.Machine
end

