-- ==== Sys2Proof/Laws/Exec.lean ====
section
/-! SUPPORT. What an instruction can do, said once for all of them: to the devices no more than two CPU stores, to F no
more than a byte with a zero low nibble, to the step's count 4 to 24 T-cycles (00_scope R3; 10_state R13, R36;
  60_exceptions R304). -/

namespace Sys2Proof.Machine

/-- CPU stores, one after the other. -/
def stores (ws : List (Word × Byte)) (s : State) : State := ws.foldl (fun t w => busWrite t w.1 w.2) s

@[simp] theorem stores_nil (s : State) : stores [] s = s := rfl

@[simp] theorem stores_cons (w : Word × Byte) (ws : List (Word × Byte)) (s : State) :
    stores (w :: ws) s = stores ws (busWrite s w.1 w.2) := rfl

/-- The two states agree on everything but the CPU's registers and flags and the step's count. -/
structure SameDevices (s t : State) : Prop where
  cfg : t.cfg = s.cfg
  running : t.running = s.running
  mem : t.mem = s.mem
  bootRomEnabled : t.bootRomEnabled = s.bootRomEnabled
  ppuMode : t.ppuMode = s.ppuMode
  ppuCounter : t.ppuCounter = s.ppuCounter
  ly : t.ly = s.ly
  sprites : t.sprites = s.sprites
  divAcc : t.divAcc = s.divAcc
  timaAcc : t.timaAcc = s.timaAcc
  dmaRunning : t.dmaRunning = s.dmaRunning
  dmaCounter : t.dmaCounter = s.dmaCounter
  buttons : t.buttons = s.buttons
  frameCycles : t.frameCycles = s.frameCycles
  pixelOut : t.pixelOut = s.pixelOut
  serialOut : t.serialOut = s.serialOut
  hostInputs : t.hostInputs = s.hostInputs

theorem SameDevices.refl (s : State) : SameDevices s s :=
  ⟨rfl, rfl, rfl, rfl, rfl, rfl, rfl, rfl, rfl, rfl, rfl, rfl, rfl, rfl, rfl, rfl, rfl⟩

theorem SameDevices.trans {s t u : State} (h : SameDevices s t) (g : SameDevices t u) : SameDevices s u :=
  ⟨g.cfg.trans h.cfg, g.running.trans h.running, g.mem.trans h.mem, g.bootRomEnabled.trans h.bootRomEnabled,
    g.ppuMode.trans h.ppuMode, g.ppuCounter.trans h.ppuCounter, g.ly.trans h.ly, g.sprites.trans h.sprites,
    g.divAcc.trans h.divAcc, g.timaAcc.trans h.timaAcc, g.dmaRunning.trans h.dmaRunning,
    g.dmaCounter.trans h.dmaCounter, g.buttons.trans h.buttons, g.frameCycles.trans h.frameCycles,
    g.pixelOut.trans h.pixelOut, g.serialOut.trans h.serialOut, g.hostInputs.trans h.hostInputs⟩

/-- Every update of registers is one of these. -/
theorem sameDevices_registers (s : State) (a f b c d e h l : Byte) (sp pc : Word) (ime halted haltBug : Bool)
    (imeDelay cycles : Nat) :
    SameDevices s { s with a := a, f := f, b := b, c := c, d := d, e := e, h := h, l := l, sp := sp, pc := pc, ime :=
      ime
                           halted := halted, haltBug := haltBug, imeDelay := imeDelay, cycles := cycles } :=
  ⟨rfl, rfl, rfl, rfl, rfl, rfl, rfl, rfl, rfl, rfl, rfl, rfl, rfl, rfl, rfl, rfl, rfl⟩

/-- What an instruction can do. -/
structure Effect (s t : State) : Prop where
  /-- To the devices: at most two CPU stores. -/
  devices : ∃ ws : List (Word × Byte), ws.length ≤ 2 ∧ SameDevices (stores ws s) t
  /-- R13. -/
  flags : s.f &&& 0x0F = 0 → t.f &&& 0x0F = 0
  /-- R253, R254. -/
  imeDelay : t.imeDelay = s.imeDelay ∨ t.imeDelay = 0 ∨ (t.imeDelay = 2 ∧ s.cfg.eiDelay = true)
  /-- R304. -/
  cycles : s.cycles + 4 ≤ t.cycles ∧ t.cycles ≤ s.cycles + 24

/-- A CPU store that clears DIV is `resetDiv` (R57, R252). -/
theorem busWrite_div (s : State) (v : Byte) : busWrite s 0xFF04 v = resetDiv s := by
  unfold busWrite
  rw [gated_eq_false (by decide) (by decide), if_neg Bool.false_ne_true, if_neg (by decide), if_neg (by decide),
    if_neg (by decide), if_pos rfl]

theorem and_F0_low (v : Byte) : v &&& 0xF0 &&& 0x0F = 0 := by
  rw [BitVec.and_assoc]
  exact BitVec.and_zero

/-- An instruction that makes no store. -/
theorem Effect.registers {s u t : State} (k : Nat) (hk : (Nat.ble 4 k && Nat.ble k 24) = true)
    (h : done k u = .next t) (hu : SameDevices s u)
    (hc : u.cycles = s.cycles) (hf : u.f = s.f ∨ u.f &&& 0x0F = 0)
    (hi : u.imeDelay = s.imeDelay ∨ u.imeDelay = 0 ∨ (u.imeDelay = 2 ∧ s.cfg.eiDelay = true)) : Effect s t := by
  injection h with h
  subst h
  refine ⟨⟨[], by decide, hu.trans (sameDevices_registers _ _ _ _ _ _ _ _ _ _ _ _ _ _ _ _)⟩, fun h => ?_, hi, ?_⟩
  · rcases hf with hf | hf
    · exact (congrArg (· &&& 0x0F) hf).trans h
    · exact hf
  · simp only [Bool.and_eq_true, Nat.ble_eq] at hk
    dsimp only
    omega

/-- An instruction that makes one store. -/
theorem Effect.store1 {s u t : State} (a : Word) (v : Byte) (k : Nat) (hk : (Nat.ble 4 k && Nat.ble k 24) = true)
    (h : done k u = .next t)
    (hu : SameDevices (busWrite s a v) u) (hc : u.cycles = (busWrite s a v).cycles)
    (hf : u.f = (busWrite s a v).f ∨ u.f &&& 0x0F = 0) (hi : u.imeDelay = (busWrite s a v).imeDelay) : Effect s t := by
  rw [busWrite_cycles] at hc
  rw [busWrite_f] at hf
  rw [busWrite_imeDelay] at hi
  injection h with h
  subst h
  refine ⟨⟨[(a, v)], Nat.le_succ 1, hu.trans (sameDevices_registers _ _ _ _ _ _ _ _ _ _ _ _ _ _ _ _)⟩, fun h => ?_,
    .inl hi, ?_⟩
  · rcases hf with hf | hf
    · exact (congrArg (· &&& 0x0F) hf).trans h
    · exact hf
  · simp only [Bool.and_eq_true, Nat.ble_eq] at hk
    dsimp only
    omega

/-- An instruction that makes two stores. -/
theorem Effect.store2 {s u t : State} (a : Word) (v : Byte) (b : Word) (w : Byte) (k : Nat) (hk : (Nat.ble 4 k &&
  Nat.ble k 24) = true)
    (h : done k u = .next t)
    (hu : SameDevices (busWrite (busWrite s a v) b w) u) (hc : u.cycles = (busWrite (busWrite s a v) b w).cycles)
    (hf : u.f = (busWrite (busWrite s a v) b w).f ∨ u.f &&& 0x0F = 0)
    (hi : u.imeDelay = (busWrite (busWrite s a v) b w).imeDelay) :
    Effect s t := by
  rw [busWrite_cycles, busWrite_cycles] at hc
  rw [busWrite_f, busWrite_f] at hf
  rw [busWrite_imeDelay, busWrite_imeDelay] at hi
  injection h with h
  subst h
  refine ⟨⟨[(a, v), (b, w)], Nat.le_refl 2, hu.trans (sameDevices_registers _ _ _ _ _ _ _ _ _ _ _ _ _ _ _ _)⟩,
    fun h => ?_, .inl hi, ?_⟩
  · rcases hf with hf | hf
    · exact (congrArg (· &&& 0x0F) hf).trans h
    · exact hf
  · simp only [Bool.and_eq_true, Nat.ble_eq] at hk
    dsimp only
    omega

/-! ## Every instruction -/

theorem effect_nop {s t : State} (h : exec .nop s = .next t) : Effect s t := 
  Effect.registers 4 rfl h (sameDevices_registers _ _ _ _ _ _ _ _ _ _ _ _ _ _ _ _) rfl (.inl rfl) (.inl rfl)

theorem effect_ldRrN16 (p : R16) (n : Word) {s t : State} (h : exec (.ldRrN16 p n) s = .next t) : Effect s t := by
  cases p <;> exact Effect.registers 12 rfl h (sameDevices_registers _ _ _ _ _ _ _ _ _ _ _ _ _ _ _ _) rfl (.inl rfl)
    (.inl rfl)

theorem effect_ldBcA {s t : State} (h : exec .ldBcA s = .next t) : Effect s t := 
  Effect.store1 (bc s) s.a 8 rfl h (sameDevices_registers _ _ _ _ _ _ _ _ _ _ _ _ _ _ _ _) rfl (.inl rfl) rfl

theorem effect_ldDeA {s t : State} (h : exec .ldDeA s = .next t) : Effect s t := 
  Effect.store1 (de s) s.a 8 rfl h (sameDevices_registers _ _ _ _ _ _ _ _ _ _ _ _ _ _ _ _) rfl (.inl rfl) rfl

theorem effect_ldHlIncA {s t : State} (h : exec .ldHlIncA s = .next t) : Effect s t := 
  Effect.store1 (hl s) s.a 8 rfl h (sameDevices_registers _ _ _ _ _ _ _ _ _ _ _ _ _ _ _ _) rfl (.inl rfl) rfl

theorem effect_ldHlDecA {s t : State} (h : exec .ldHlDecA s = .next t) : Effect s t := 
  Effect.store1 (hl s) s.a 8 rfl h (sameDevices_registers _ _ _ _ _ _ _ _ _ _ _ _ _ _ _ _) rfl (.inl rfl) rfl

theorem effect_incRr (p : R16) {s t : State} (h : exec (.incRr p) s = .next t) : Effect s t := by
  cases p <;> exact Effect.registers 8 rfl h (sameDevices_registers _ _ _ _ _ _ _ _ _ _ _ _ _ _ _ _) rfl (.inl rfl)
    (.inl rfl)

theorem effect_incR (r : Reg8) {s t : State} (h : exec (.incR r) s = .next t) : Effect s t := by
  cases r <;> exact Effect.registers 4 rfl h (sameDevices_registers _ _ _ _ _ _ _ _ _ _ _ _ _ _ _ _) rfl (.inr
    (flagsByte_low _ _ _ _)) (.inl rfl)

theorem effect_incHl {s t : State} (h : exec .incHl s = .next t) : Effect s t := 
  Effect.store1 (hl s) (readHl s + 1) 12 rfl h (sameDevices_registers _ _ _ _ _ _ _ _ _ _ _ _ _ _ _ _) rfl (.inr
    (flagsByte_low _ _ _ _)) rfl

theorem effect_decR (r : Reg8) {s t : State} (h : exec (.decR r) s = .next t) : Effect s t := by
  cases r <;> exact Effect.registers 4 rfl h (sameDevices_registers _ _ _ _ _ _ _ _ _ _ _ _ _ _ _ _) rfl (.inr
    (flagsByte_low _ _ _ _)) (.inl rfl)

theorem effect_decHl {s t : State} (h : exec .decHl s = .next t) : Effect s t := 
  Effect.store1 (hl s) (readHl s - 1) 12 rfl h (sameDevices_registers _ _ _ _ _ _ _ _ _ _ _ _ _ _ _ _) rfl (.inr
    (flagsByte_low _ _ _ _)) rfl

theorem effect_ldRN8 (r : Reg8) (n : Byte) {s t : State} (h : exec (.ldRN8 r n) s = .next t) : Effect s t := by
  cases r <;> exact Effect.registers 8 rfl h (sameDevices_registers _ _ _ _ _ _ _ _ _ _ _ _ _ _ _ _) rfl (.inl rfl)
    (.inl rfl)

theorem effect_ldHlN8 (n : Byte) {s t : State} (h : exec (.ldHlN8 n) s = .next t) : Effect s t := 
  Effect.store1 (hl s) n 12 rfl h (sameDevices_registers _ _ _ _ _ _ _ _ _ _ _ _ _ _ _ _) rfl (.inl rfl) rfl

theorem effect_rlca {s t : State} (h : exec .rlca s = .next t) : Effect s t := 
  Effect.registers 4 rfl h (sameDevices_registers _ _ _ _ _ _ _ _ _ _ _ _ _ _ _ _) rfl (.inr (flagsByte_low _ _ _ _))
    (.inl rfl)

theorem effect_rrca {s t : State} (h : exec .rrca s = .next t) : Effect s t := 
  Effect.registers 4 rfl h (sameDevices_registers _ _ _ _ _ _ _ _ _ _ _ _ _ _ _ _) rfl (.inr (flagsByte_low _ _ _ _))
    (.inl rfl)

theorem effect_rla {s t : State} (h : exec .rla s = .next t) : Effect s t := 
  Effect.registers 4 rfl h (sameDevices_registers _ _ _ _ _ _ _ _ _ _ _ _ _ _ _ _) rfl (.inr (flagsByte_low _ _ _ _))
    (.inl rfl)

theorem effect_rra {s t : State} (h : exec .rra s = .next t) : Effect s t := 
  Effect.registers 4 rfl h (sameDevices_registers _ _ _ _ _ _ _ _ _ _ _ _ _ _ _ _) rfl (.inr (flagsByte_low _ _ _ _))
    (.inl rfl)

theorem effect_ldN16Sp (n : Word) {s t : State} (h : exec (.ldN16Sp n) s = .next t) : Effect s t := 
  Effect.store2 n (loByte s.sp) (n + 1) (hiByte s.sp) 20 rfl h (sameDevices_registers _ _ _ _ _ _ _ _ _ _ _ _ _ _ _ _)
    rfl (.inl rfl) rfl

theorem effect_addHlRr (p : R16) {s t : State} (h : exec (.addHlRr p) s = .next t) : Effect s t := 
  Effect.registers 8 rfl h (sameDevices_registers _ _ _ _ _ _ _ _ _ _ _ _ _ _ _ _) rfl (.inr (flagsByte_low _ _ _ _))
    (.inl rfl)

theorem effect_ldABc {s t : State} (h : exec .ldABc s = .next t) : Effect s t := 
  Effect.registers 8 rfl h (sameDevices_registers _ _ _ _ _ _ _ _ _ _ _ _ _ _ _ _) rfl (.inl rfl) (.inl rfl)

theorem effect_ldADe {s t : State} (h : exec .ldADe s = .next t) : Effect s t := 
  Effect.registers 8 rfl h (sameDevices_registers _ _ _ _ _ _ _ _ _ _ _ _ _ _ _ _) rfl (.inl rfl) (.inl rfl)

theorem effect_ldAHlInc {s t : State} (h : exec .ldAHlInc s = .next t) : Effect s t := 
  Effect.registers 8 rfl h (sameDevices_registers _ _ _ _ _ _ _ _ _ _ _ _ _ _ _ _) rfl (.inl rfl) (.inl rfl)

theorem effect_ldAHlDec {s t : State} (h : exec .ldAHlDec s = .next t) : Effect s t := 
  Effect.registers 8 rfl h (sameDevices_registers _ _ _ _ _ _ _ _ _ _ _ _ _ _ _ _) rfl (.inl rfl) (.inl rfl)

theorem effect_decRr (p : R16) {s t : State} (h : exec (.decRr p) s = .next t) : Effect s t := by
  cases p <;> exact Effect.registers 8 rfl h (sameDevices_registers _ _ _ _ _ _ _ _ _ _ _ _ _ _ _ _) rfl (.inl rfl)
    (.inl rfl)

theorem effect_stop (pad : Byte) {s t : State} (h : exec (.stop pad) s = .next t) : Effect s t := 
  Effect.store1 0xFF04 0 4 rfl h (by rw [busWrite_div]; exact sameDevices_registers _ _ _ _ _ _ _ _ _ _ _ _ _ _ _ _)
    (by rw [busWrite_div]) (.inl (by rw [busWrite_div])) (by rw [busWrite_div])

theorem effect_jrS8 (e : Byte) {s t : State} (h : exec (.jrS8 e) s = .next t) : Effect s t := 
  Effect.registers 12 rfl h (sameDevices_registers _ _ _ _ _ _ _ _ _ _ _ _ _ _ _ _) rfl (.inl rfl) (.inl rfl)

theorem effect_jrCcS8 (cc : Cond) (e : Byte) {s t : State} (h : exec (.jrCcS8 cc e) s = .next t) : Effect s t := by
  change execJrCcS8 cc e s = .next t at h
  unfold execJrCcS8 at h
  split at h
  · exact Effect.registers 12 rfl h (sameDevices_registers _ _ _ _ _ _ _ _ _ _ _ _ _ _ _ _) rfl (.inl rfl) (.inl rfl)
  · exact Effect.registers 8 rfl h (sameDevices_registers _ _ _ _ _ _ _ _ _ _ _ _ _ _ _ _) rfl (.inl rfl) (.inl rfl)

theorem effect_daa {s t : State} (h : exec .daa s = .next t) : Effect s t := 
  Effect.registers 4 rfl h (sameDevices_registers _ _ _ _ _ _ _ _ _ _ _ _ _ _ _ _) rfl (.inr (flagsByte_low _ _ _ _))
    (.inl rfl)

theorem effect_cpl {s t : State} (h : exec .cpl s = .next t) : Effect s t := 
  Effect.registers 4 rfl h (sameDevices_registers _ _ _ _ _ _ _ _ _ _ _ _ _ _ _ _) rfl (.inr (flagsByte_low _ _ _ _))
    (.inl rfl)

theorem effect_scf {s t : State} (h : exec .scf s = .next t) : Effect s t := 
  Effect.registers 4 rfl h (sameDevices_registers _ _ _ _ _ _ _ _ _ _ _ _ _ _ _ _) rfl (.inr (flagsByte_low _ _ _ _))
    (.inl rfl)

theorem effect_ccf {s t : State} (h : exec .ccf s = .next t) : Effect s t := 
  Effect.registers 4 rfl h (sameDevices_registers _ _ _ _ _ _ _ _ _ _ _ _ _ _ _ _) rfl (.inr (flagsByte_low _ _ _ _))
    (.inl rfl)

theorem effect_ldRR (dst : Reg8) (src : Reg8) {s t : State} (h : exec (.ldRR dst src) s = .next t) : Effect s t := by
  cases dst <;> exact Effect.registers 4 rfl h (sameDevices_registers _ _ _ _ _ _ _ _ _ _ _ _ _ _ _ _) rfl (.inl rfl)
    (.inl rfl)

theorem effect_ldRHl (dst : Reg8) {s t : State} (h : exec (.ldRHl dst) s = .next t) : Effect s t := by
  cases dst <;> exact Effect.registers 8 rfl h (sameDevices_registers _ _ _ _ _ _ _ _ _ _ _ _ _ _ _ _) rfl (.inl rfl)
    (.inl rfl)

theorem effect_ldHlR (r : Reg8) {s t : State} (h : exec (.ldHlR r) s = .next t) : Effect s t := 
  Effect.store1 (hl s) (reg8 s r) 8 rfl h (sameDevices_registers _ _ _ _ _ _ _ _ _ _ _ _ _ _ _ _) rfl (.inl rfl) rfl

theorem effect_halt {s t : State} (h : exec .halt s = .next t) : Effect s t := by
  change execHalt s = .next t at h
  unfold execHalt at h
  split_ifs at h <;> exact Effect.registers 4 rfl h (sameDevices_registers _ _ _ _ _ _ _ _ _ _ _ _ _ _ _ _) rfl (.inl
    rfl) (.inl rfl)

theorem effect_addAR (r : Reg8) {s t : State} (h : exec (.addAR r) s = .next t) : Effect s t := 
  Effect.registers 4 rfl h (sameDevices_registers _ _ _ _ _ _ _ _ _ _ _ _ _ _ _ _) rfl (.inr (flagsByte_low _ _ _ _))
    (.inl rfl)

theorem effect_addAHl {s t : State} (h : exec .addAHl s = .next t) : Effect s t := 
  Effect.registers 8 rfl h (sameDevices_registers _ _ _ _ _ _ _ _ _ _ _ _ _ _ _ _) rfl (.inr (flagsByte_low _ _ _ _))
    (.inl rfl)

theorem effect_addAN8 (n : Byte) {s t : State} (h : exec (.addAN8 n) s = .next t) : Effect s t := 
  Effect.registers 8 rfl h (sameDevices_registers _ _ _ _ _ _ _ _ _ _ _ _ _ _ _ _) rfl (.inr (flagsByte_low _ _ _ _))
    (.inl rfl)

theorem effect_adcAR (r : Reg8) {s t : State} (h : exec (.adcAR r) s = .next t) : Effect s t := 
  Effect.registers 4 rfl h (sameDevices_registers _ _ _ _ _ _ _ _ _ _ _ _ _ _ _ _) rfl (.inr (flagsByte_low _ _ _ _))
    (.inl rfl)

theorem effect_adcAHl {s t : State} (h : exec .adcAHl s = .next t) : Effect s t := 
  Effect.registers 8 rfl h (sameDevices_registers _ _ _ _ _ _ _ _ _ _ _ _ _ _ _ _) rfl (.inr (flagsByte_low _ _ _ _))
    (.inl rfl)

theorem effect_adcAN8 (n : Byte) {s t : State} (h : exec (.adcAN8 n) s = .next t) : Effect s t := 
  Effect.registers 8 rfl h (sameDevices_registers _ _ _ _ _ _ _ _ _ _ _ _ _ _ _ _) rfl (.inr (flagsByte_low _ _ _ _))
    (.inl rfl)

theorem effect_subAR (r : Reg8) {s t : State} (h : exec (.subAR r) s = .next t) : Effect s t := 
  Effect.registers 4 rfl h (sameDevices_registers _ _ _ _ _ _ _ _ _ _ _ _ _ _ _ _) rfl (.inr (flagsByte_low _ _ _ _))
    (.inl rfl)

theorem effect_subAHl {s t : State} (h : exec .subAHl s = .next t) : Effect s t := 
  Effect.registers 8 rfl h (sameDevices_registers _ _ _ _ _ _ _ _ _ _ _ _ _ _ _ _) rfl (.inr (flagsByte_low _ _ _ _))
    (.inl rfl)

theorem effect_subAN8 (n : Byte) {s t : State} (h : exec (.subAN8 n) s = .next t) : Effect s t := 
  Effect.registers 8 rfl h (sameDevices_registers _ _ _ _ _ _ _ _ _ _ _ _ _ _ _ _) rfl (.inr (flagsByte_low _ _ _ _))
    (.inl rfl)

theorem effect_sbcAR (r : Reg8) {s t : State} (h : exec (.sbcAR r) s = .next t) : Effect s t := 
  Effect.registers 4 rfl h (sameDevices_registers _ _ _ _ _ _ _ _ _ _ _ _ _ _ _ _) rfl (.inr (flagsByte_low _ _ _ _))
    (.inl rfl)

theorem effect_sbcAHl {s t : State} (h : exec .sbcAHl s = .next t) : Effect s t := 
  Effect.registers 8 rfl h (sameDevices_registers _ _ _ _ _ _ _ _ _ _ _ _ _ _ _ _) rfl (.inr (flagsByte_low _ _ _ _))
    (.inl rfl)

theorem effect_sbcAN8 (n : Byte) {s t : State} (h : exec (.sbcAN8 n) s = .next t) : Effect s t := 
  Effect.registers 8 rfl h (sameDevices_registers _ _ _ _ _ _ _ _ _ _ _ _ _ _ _ _) rfl (.inr (flagsByte_low _ _ _ _))
    (.inl rfl)

theorem effect_andAR (r : Reg8) {s t : State} (h : exec (.andAR r) s = .next t) : Effect s t := 
  Effect.registers 4 rfl h (sameDevices_registers _ _ _ _ _ _ _ _ _ _ _ _ _ _ _ _) rfl (.inr (flagsByte_low _ _ _ _))
    (.inl rfl)

theorem effect_andAHl {s t : State} (h : exec .andAHl s = .next t) : Effect s t := 
  Effect.registers 8 rfl h (sameDevices_registers _ _ _ _ _ _ _ _ _ _ _ _ _ _ _ _) rfl (.inr (flagsByte_low _ _ _ _))
    (.inl rfl)

theorem effect_andAN8 (n : Byte) {s t : State} (h : exec (.andAN8 n) s = .next t) : Effect s t := 
  Effect.registers 8 rfl h (sameDevices_registers _ _ _ _ _ _ _ _ _ _ _ _ _ _ _ _) rfl (.inr (flagsByte_low _ _ _ _))
    (.inl rfl)

theorem effect_xorAR (r : Reg8) {s t : State} (h : exec (.xorAR r) s = .next t) : Effect s t := 
  Effect.registers 4 rfl h (sameDevices_registers _ _ _ _ _ _ _ _ _ _ _ _ _ _ _ _) rfl (.inr (flagsByte_low _ _ _ _))
    (.inl rfl)

theorem effect_xorAHl {s t : State} (h : exec .xorAHl s = .next t) : Effect s t := 
  Effect.registers 8 rfl h (sameDevices_registers _ _ _ _ _ _ _ _ _ _ _ _ _ _ _ _) rfl (.inr (flagsByte_low _ _ _ _))
    (.inl rfl)

theorem effect_xorAN8 (n : Byte) {s t : State} (h : exec (.xorAN8 n) s = .next t) : Effect s t := 
  Effect.registers 8 rfl h (sameDevices_registers _ _ _ _ _ _ _ _ _ _ _ _ _ _ _ _) rfl (.inr (flagsByte_low _ _ _ _))
    (.inl rfl)

theorem effect_orAR (r : Reg8) {s t : State} (h : exec (.orAR r) s = .next t) : Effect s t := 
  Effect.registers 4 rfl h (sameDevices_registers _ _ _ _ _ _ _ _ _ _ _ _ _ _ _ _) rfl (.inr (flagsByte_low _ _ _ _))
    (.inl rfl)

theorem effect_orAHl {s t : State} (h : exec .orAHl s = .next t) : Effect s t := 
  Effect.registers 8 rfl h (sameDevices_registers _ _ _ _ _ _ _ _ _ _ _ _ _ _ _ _) rfl (.inr (flagsByte_low _ _ _ _))
    (.inl rfl)

theorem effect_orAN8 (n : Byte) {s t : State} (h : exec (.orAN8 n) s = .next t) : Effect s t := 
  Effect.registers 8 rfl h (sameDevices_registers _ _ _ _ _ _ _ _ _ _ _ _ _ _ _ _) rfl (.inr (flagsByte_low _ _ _ _))
    (.inl rfl)

theorem effect_cpAR (r : Reg8) {s t : State} (h : exec (.cpAR r) s = .next t) : Effect s t := 
  Effect.registers 4 rfl h (sameDevices_registers _ _ _ _ _ _ _ _ _ _ _ _ _ _ _ _) rfl (.inr (flagsByte_low _ _ _ _))
    (.inl rfl)

theorem effect_cpAHl {s t : State} (h : exec .cpAHl s = .next t) : Effect s t := 
  Effect.registers 8 rfl h (sameDevices_registers _ _ _ _ _ _ _ _ _ _ _ _ _ _ _ _) rfl (.inr (flagsByte_low _ _ _ _))
    (.inl rfl)

theorem effect_cpAN8 (n : Byte) {s t : State} (h : exec (.cpAN8 n) s = .next t) : Effect s t := 
  Effect.registers 8 rfl h (sameDevices_registers _ _ _ _ _ _ _ _ _ _ _ _ _ _ _ _) rfl (.inr (flagsByte_low _ _ _ _))
    (.inl rfl)

theorem effect_retCc (cc : Cond) {s t : State} (h : exec (.retCc cc) s = .next t) : Effect s t := by
  change execRetCc cc s = .next t at h
  unfold execRetCc at h
  split at h
  · exact Effect.registers 20 rfl h (sameDevices_registers _ _ _ _ _ _ _ _ _ _ _ _ _ _ _ _) rfl (.inl rfl) (.inl rfl)
  · exact Effect.registers 8 rfl h (sameDevices_registers _ _ _ _ _ _ _ _ _ _ _ _ _ _ _ _) rfl (.inl rfl) (.inl rfl)

theorem effect_popRr (p : R16S) {s t : State} (h : exec (.popRr p) s = .next t) : Effect s t := by
  cases p
  · exact Effect.registers 12 rfl h (sameDevices_registers _ _ _ _ _ _ _ _ _ _ _ _ _ _ _ _) rfl (.inl rfl) (.inl rfl)
  · exact Effect.registers 12 rfl h (sameDevices_registers _ _ _ _ _ _ _ _ _ _ _ _ _ _ _ _) rfl (.inl rfl) (.inl rfl)
  · exact Effect.registers 12 rfl h (sameDevices_registers _ _ _ _ _ _ _ _ _ _ _ _ _ _ _ _) rfl (.inl rfl) (.inl rfl)
  · exact Effect.registers 12 rfl h (sameDevices_registers _ _ _ _ _ _ _ _ _ _ _ _ _ _ _ _) rfl (.inr (and_F0_low _))
      (.inl rfl)

theorem effect_popAf {s t : State} (h : exec .popAf s = .next t) : Effect s t := 
  Effect.registers 12 rfl h (sameDevices_registers _ _ _ _ _ _ _ _ _ _ _ _ _ _ _ _) rfl (.inr (and_F0_low _)) (.inl rfl)

theorem effect_jpCcN16 (cc : Cond) (n : Word) {s t : State} (h : exec (.jpCcN16 cc n) s = .next t) : Effect s t := by
  change execJpCcN16 cc n s = .next t at h
  unfold execJpCcN16 at h
  split at h
  · exact Effect.registers 16 rfl h (sameDevices_registers _ _ _ _ _ _ _ _ _ _ _ _ _ _ _ _) rfl (.inl rfl) (.inl rfl)
  · exact Effect.registers 12 rfl h (sameDevices_registers _ _ _ _ _ _ _ _ _ _ _ _ _ _ _ _) rfl (.inl rfl) (.inl rfl)

theorem effect_jpN16 (n : Word) {s t : State} (h : exec (.jpN16 n) s = .next t) : Effect s t := 
  Effect.registers 16 rfl h (sameDevices_registers _ _ _ _ _ _ _ _ _ _ _ _ _ _ _ _) rfl (.inl rfl) (.inl rfl)

theorem effect_callCcN16 (cc : Cond) (n : Word) {s t : State} (h : exec (.callCcN16 cc n) s = .next t) : Effect s t :=
  by
  change execCallCcN16 cc n s = .next t at h
  unfold execCallCcN16 at h
  split at h
  · exact Effect.store2 (s.sp - 1) (hiByte s.pc) (s.sp - 2) (loByte s.pc) 24 rfl h (sameDevices_registers _ _ _ _ _ _
      _ _ _ _ _ _ _ _ _ _) rfl (.inl rfl) rfl
  · exact Effect.registers 12 rfl h (sameDevices_registers _ _ _ _ _ _ _ _ _ _ _ _ _ _ _ _) rfl (.inl rfl) (.inl rfl)

theorem effect_pushRr (p : R16S) {s t : State} (h : exec (.pushRr p) s = .next t) : Effect s t := 
  Effect.store2 (s.sp - 1) (hiByte (r16s s p)) (s.sp - 2) (loByte (r16s s p)) 16 rfl h (sameDevices_registers _ _ _ _
    _ _ _ _ _ _ _ _ _ _ _ _) rfl (.inl rfl) rfl

theorem effect_pushAf {s t : State} (h : exec .pushAf s = .next t) : Effect s t := 
  Effect.store2 (s.sp - 1) (hiByte (af s)) (s.sp - 2) (loByte (af s)) 16 rfl h (sameDevices_registers _ _ _ _ _ _ _ _
    _ _ _ _ _ _ _ _) rfl (.inl rfl) rfl

theorem effect_rst (k : Fin 8) {s t : State} (h : exec (.rst k) s = .next t) : Effect s t := 
  Effect.store2 (s.sp - 1) (hiByte s.pc) (s.sp - 2) (loByte s.pc) 16 rfl h (sameDevices_registers _ _ _ _ _ _ _ _ _ _
    _ _ _ _ _ _) rfl (.inl rfl) rfl

theorem effect_ret {s t : State} (h : exec .ret s = .next t) : Effect s t := 
  Effect.registers 16 rfl h (sameDevices_registers _ _ _ _ _ _ _ _ _ _ _ _ _ _ _ _) rfl (.inl rfl) (.inl rfl)

theorem effect_callN16 (n : Word) {s t : State} (h : exec (.callN16 n) s = .next t) : Effect s t := 
  Effect.store2 (s.sp - 1) (hiByte s.pc) (s.sp - 2) (loByte s.pc) 24 rfl h (sameDevices_registers _ _ _ _ _ _ _ _ _ _
    _ _ _ _ _ _) rfl (.inl rfl) rfl

theorem effect_reti {s t : State} (h : exec .reti s = .next t) : Effect s t := 
  Effect.registers 16 rfl h (sameDevices_registers _ _ _ _ _ _ _ _ _ _ _ _ _ _ _ _) rfl (.inl rfl) (.inr (.inl rfl))

theorem effect_ldhN8A (n : Byte) {s t : State} (h : exec (.ldhN8A n) s = .next t) : Effect s t := 
  Effect.store1 (highPage n) s.a 12 rfl h (sameDevices_registers _ _ _ _ _ _ _ _ _ _ _ _ _ _ _ _) rfl (.inl rfl) rfl

theorem effect_ldhCA {s t : State} (h : exec .ldhCA s = .next t) : Effect s t := 
  Effect.store1 (highPage s.c) s.a 8 rfl h (sameDevices_registers _ _ _ _ _ _ _ _ _ _ _ _ _ _ _ _) rfl (.inl rfl) rfl

theorem effect_ldhAN8 (n : Byte) {s t : State} (h : exec (.ldhAN8 n) s = .next t) : Effect s t := 
  Effect.registers 12 rfl h (sameDevices_registers _ _ _ _ _ _ _ _ _ _ _ _ _ _ _ _) rfl (.inl rfl) (.inl rfl)

theorem effect_ldhAC {s t : State} (h : exec .ldhAC s = .next t) : Effect s t := 
  Effect.registers 8 rfl h (sameDevices_registers _ _ _ _ _ _ _ _ _ _ _ _ _ _ _ _) rfl (.inl rfl) (.inl rfl)

theorem effect_addSpS8 (e : Byte) {s t : State} (h : exec (.addSpS8 e) s = .next t) : Effect s t := 
  Effect.registers 16 rfl h (sameDevices_registers _ _ _ _ _ _ _ _ _ _ _ _ _ _ _ _) rfl (.inr (flagsByte_low _ _ _ _))
    (.inl rfl)

theorem effect_jpHl {s t : State} (h : exec .jpHl s = .next t) : Effect s t := 
  Effect.registers 4 rfl h (sameDevices_registers _ _ _ _ _ _ _ _ _ _ _ _ _ _ _ _) rfl (.inl rfl) (.inl rfl)

theorem effect_ldN16A (n : Word) {s t : State} (h : exec (.ldN16A n) s = .next t) : Effect s t := 
  Effect.store1 n s.a 16 rfl h (sameDevices_registers _ _ _ _ _ _ _ _ _ _ _ _ _ _ _ _) rfl (.inl rfl) rfl

theorem effect_ldAN16 (n : Word) {s t : State} (h : exec (.ldAN16 n) s = .next t) : Effect s t := 
  Effect.registers 16 rfl h (sameDevices_registers _ _ _ _ _ _ _ _ _ _ _ _ _ _ _ _) rfl (.inl rfl) (.inl rfl)

theorem effect_di {s t : State} (h : exec .di s = .next t) : Effect s t := 
  Effect.registers 4 rfl h (sameDevices_registers _ _ _ _ _ _ _ _ _ _ _ _ _ _ _ _) rfl (.inl rfl) (.inr (.inl rfl))

theorem effect_ei {s t : State} (h : exec .ei s = .next t) : Effect s t := by
  change execEi s = .next t at h
  unfold execEi at h
  split_ifs at h with h1 h2
  · exact Effect.registers 4 rfl h (sameDevices_registers _ _ _ _ _ _ _ _ _ _ _ _ _ _ _ _) rfl (.inl rfl) (.inr (.inr
      ⟨rfl, h1⟩))
  · exact Effect.registers 4 rfl h (sameDevices_registers _ _ _ _ _ _ _ _ _ _ _ _ _ _ _ _) rfl (.inl rfl) (.inl rfl)
  · exact Effect.registers 4 rfl h (sameDevices_registers _ _ _ _ _ _ _ _ _ _ _ _ _ _ _ _) rfl (.inl rfl) (.inl rfl)

theorem effect_ldHlSpS8 (e : Byte) {s t : State} (h : exec (.ldHlSpS8 e) s = .next t) : Effect s t := 
  Effect.registers 12 rfl h (sameDevices_registers _ _ _ _ _ _ _ _ _ _ _ _ _ _ _ _) rfl (.inr (flagsByte_low _ _ _ _))
    (.inl rfl)

theorem effect_ldSpHl {s t : State} (h : exec .ldSpHl s = .next t) : Effect s t := 
  Effect.registers 8 rfl h (sameDevices_registers _ _ _ _ _ _ _ _ _ _ _ _ _ _ _ _) rfl (.inl rfl) (.inl rfl)

theorem effect_illegal (op : Byte) {s t : State} (h : exec (.illegal op) s = .next t) : Effect s t := 
  Effect.registers 4 rfl h (sameDevices_registers _ _ _ _ _ _ _ _ _ _ _ _ _ _ _ _) rfl (.inl rfl) (.inl rfl)

theorem effect_rlcR (r : Reg8) {s t : State} (h : exec (.rlcR r) s = .next t) : Effect s t := by
  cases r <;> exact Effect.registers 8 rfl h (sameDevices_registers _ _ _ _ _ _ _ _ _ _ _ _ _ _ _ _) rfl (.inr
    (flagsByte_low _ _ _ _)) (.inl rfl)

theorem effect_rlcHl {s t : State} (h : exec .rlcHl s = .next t) : Effect s t := 
  Effect.store1 (hl s) (rlc (readHl s)).1 16 rfl h (sameDevices_registers _ _ _ _ _ _ _ _ _ _ _ _ _ _ _ _) rfl (.inr
    (flagsByte_low _ _ _ _)) rfl

theorem effect_rrcR (r : Reg8) {s t : State} (h : exec (.rrcR r) s = .next t) : Effect s t := by
  cases r <;> exact Effect.registers 8 rfl h (sameDevices_registers _ _ _ _ _ _ _ _ _ _ _ _ _ _ _ _) rfl (.inr
    (flagsByte_low _ _ _ _)) (.inl rfl)

theorem effect_rrcHl {s t : State} (h : exec .rrcHl s = .next t) : Effect s t := 
  Effect.store1 (hl s) (rrc (readHl s)).1 16 rfl h (sameDevices_registers _ _ _ _ _ _ _ _ _ _ _ _ _ _ _ _) rfl (.inr
    (flagsByte_low _ _ _ _)) rfl

theorem effect_rlR (r : Reg8) {s t : State} (h : exec (.rlR r) s = .next t) : Effect s t := by
  cases r <;> exact Effect.registers 8 rfl h (sameDevices_registers _ _ _ _ _ _ _ _ _ _ _ _ _ _ _ _) rfl (.inr
    (flagsByte_low _ _ _ _)) (.inl rfl)

theorem effect_rlHl {s t : State} (h : exec .rlHl s = .next t) : Effect s t := 
  Effect.store1 (hl s) (rl (readHl s) (cFlag s)).1 16 rfl h (sameDevices_registers _ _ _ _ _ _ _ _ _ _ _ _ _ _ _ _)
    rfl (.inr (flagsByte_low _ _ _ _)) rfl

theorem effect_rrR (r : Reg8) {s t : State} (h : exec (.rrR r) s = .next t) : Effect s t := by
  cases r <;> exact Effect.registers 8 rfl h (sameDevices_registers _ _ _ _ _ _ _ _ _ _ _ _ _ _ _ _) rfl (.inr
    (flagsByte_low _ _ _ _)) (.inl rfl)

theorem effect_rrHl {s t : State} (h : exec .rrHl s = .next t) : Effect s t := 
  Effect.store1 (hl s) (rr (readHl s) (cFlag s)).1 16 rfl h (sameDevices_registers _ _ _ _ _ _ _ _ _ _ _ _ _ _ _ _)
    rfl (.inr (flagsByte_low _ _ _ _)) rfl

theorem effect_slaR (r : Reg8) {s t : State} (h : exec (.slaR r) s = .next t) : Effect s t := by
  cases r <;> exact Effect.registers 8 rfl h (sameDevices_registers _ _ _ _ _ _ _ _ _ _ _ _ _ _ _ _) rfl (.inr
    (flagsByte_low _ _ _ _)) (.inl rfl)

theorem effect_slaHl {s t : State} (h : exec .slaHl s = .next t) : Effect s t := 
  Effect.store1 (hl s) (sla (readHl s)).1 16 rfl h (sameDevices_registers _ _ _ _ _ _ _ _ _ _ _ _ _ _ _ _) rfl (.inr
    (flagsByte_low _ _ _ _)) rfl

theorem effect_sraR (r : Reg8) {s t : State} (h : exec (.sraR r) s = .next t) : Effect s t := by
  cases r <;> exact Effect.registers 8 rfl h (sameDevices_registers _ _ _ _ _ _ _ _ _ _ _ _ _ _ _ _) rfl (.inr
    (flagsByte_low _ _ _ _)) (.inl rfl)

theorem effect_sraHl {s t : State} (h : exec .sraHl s = .next t) : Effect s t := 
  Effect.store1 (hl s) (sra (readHl s)).1 16 rfl h (sameDevices_registers _ _ _ _ _ _ _ _ _ _ _ _ _ _ _ _) rfl (.inr
    (flagsByte_low _ _ _ _)) rfl

theorem effect_swapR (r : Reg8) {s t : State} (h : exec (.swapR r) s = .next t) : Effect s t := by
  cases r <;> exact Effect.registers 8 rfl h (sameDevices_registers _ _ _ _ _ _ _ _ _ _ _ _ _ _ _ _) rfl (.inr
    (flagsByte_low _ _ _ _)) (.inl rfl)

theorem effect_swapHl {s t : State} (h : exec .swapHl s = .next t) : Effect s t := 
  Effect.store1 (hl s) (swap (readHl s)).1 16 rfl h (sameDevices_registers _ _ _ _ _ _ _ _ _ _ _ _ _ _ _ _) rfl (.inr
    (flagsByte_low _ _ _ _)) rfl

theorem effect_srlR (r : Reg8) {s t : State} (h : exec (.srlR r) s = .next t) : Effect s t := by
  cases r <;> exact Effect.registers 8 rfl h (sameDevices_registers _ _ _ _ _ _ _ _ _ _ _ _ _ _ _ _) rfl (.inr
    (flagsByte_low _ _ _ _)) (.inl rfl)

theorem effect_srlHl {s t : State} (h : exec .srlHl s = .next t) : Effect s t := 
  Effect.store1 (hl s) (srl (readHl s)).1 16 rfl h (sameDevices_registers _ _ _ _ _ _ _ _ _ _ _ _ _ _ _ _) rfl (.inr
    (flagsByte_low _ _ _ _)) rfl

theorem effect_bitBR (b : Fin 8) (r : Reg8) {s t : State} (h : exec (.bitBR b r) s = .next t) : Effect s t := 
  Effect.registers 8 rfl h (sameDevices_registers _ _ _ _ _ _ _ _ _ _ _ _ _ _ _ _) rfl (.inr (flagsByte_low _ _ _ _))
    (.inl rfl)

theorem effect_bitBHl (b : Fin 8) {s t : State} (h : exec (.bitBHl b) s = .next t) : Effect s t := 
  Effect.registers 12 rfl h (sameDevices_registers _ _ _ _ _ _ _ _ _ _ _ _ _ _ _ _) rfl (.inr (flagsByte_low _ _ _ _))
    (.inl rfl)

theorem effect_resBR (b : Fin 8) (r : Reg8) {s t : State} (h : exec (.resBR b r) s = .next t) : Effect s t := by
  cases r <;> exact Effect.registers 8 rfl h (sameDevices_registers _ _ _ _ _ _ _ _ _ _ _ _ _ _ _ _) rfl (.inl rfl)
    (.inl rfl)

theorem effect_resBHl (b : Fin 8) {s t : State} (h : exec (.resBHl b) s = .next t) : Effect s t := 
  Effect.store1 (hl s) (resBit b (readHl s)) 16 rfl h (sameDevices_registers _ _ _ _ _ _ _ _ _ _ _ _ _ _ _ _) rfl
    (.inl rfl) rfl

theorem effect_setBR (b : Fin 8) (r : Reg8) {s t : State} (h : exec (.setBR b r) s = .next t) : Effect s t := by
  cases r <;> exact Effect.registers 8 rfl h (sameDevices_registers _ _ _ _ _ _ _ _ _ _ _ _ _ _ _ _) rfl (.inl rfl)
    (.inl rfl)

theorem effect_setBHl (b : Fin 8) {s t : State} (h : exec (.setBHl b) s = .next t) : Effect s t := 
  Effect.store1 (hl s) (setBit b (readHl s)) 16 rfl h (sameDevices_registers _ _ _ _ _ _ _ _ _ _ _ _ _ _ _ _) rfl
    (.inl rfl) rfl

/-- The prefix has the effect of the CB-page instruction it selects (R255). -/
theorem effect_prefixCb (op2 : Byte) {s t : State} (h : exec (.prefixCb op2) s = .next t) : Effect s t := by
  change execPrefixCb op2 s = .next t at h
  unfold execPrefixCb at h
  split at h
  · exact effect_rlcR _ h
  · exact effect_rlcHl h
  · exact effect_rrcR _ h
  · exact effect_rrcHl h
  · exact effect_rlR _ h
  · exact effect_rlHl h
  · exact effect_rrR _ h
  · exact effect_rrHl h
  · exact effect_slaR _ h
  · exact effect_slaHl h
  · exact effect_sraR _ h
  · exact effect_sraHl h
  · exact effect_swapR _ h
  · exact effect_swapHl h
  · exact effect_srlR _ h
  · exact effect_srlHl h
  · exact effect_bitBR _ _ h
  · exact effect_bitBHl _ h
  · exact effect_resBR _ _ h
  · exact effect_resBHl _ h
  · exact effect_setBR _ _ h
  · exact effect_setBHl _ h

/-- What any instruction can do. -/
theorem exec_effect (i : Instr) {s t : State} (h : exec i s = .next t) : Effect s t := by
  cases i with
  | nop => exact effect_nop h
  | ldRrN16 p n => exact effect_ldRrN16 p n h
  | ldBcA => exact effect_ldBcA h
  | ldDeA => exact effect_ldDeA h
  | ldHlIncA => exact effect_ldHlIncA h
  | ldHlDecA => exact effect_ldHlDecA h
  | incRr p => exact effect_incRr p h
  | incR r => exact effect_incR r h
  | incHl => exact effect_incHl h
  | decR r => exact effect_decR r h
  | decHl => exact effect_decHl h
  | ldRN8 r n => exact effect_ldRN8 r n h
  | ldHlN8 n => exact effect_ldHlN8 n h
  | rlca => exact effect_rlca h
  | rrca => exact effect_rrca h
  | rla => exact effect_rla h
  | rra => exact effect_rra h
  | ldN16Sp n => exact effect_ldN16Sp n h
  | addHlRr p => exact effect_addHlRr p h
  | ldABc => exact effect_ldABc h
  | ldADe => exact effect_ldADe h
  | ldAHlInc => exact effect_ldAHlInc h
  | ldAHlDec => exact effect_ldAHlDec h
  | decRr p => exact effect_decRr p h
  | stop pad => exact effect_stop pad h
  | jrS8 e => exact effect_jrS8 e h
  | jrCcS8 cc e => exact effect_jrCcS8 cc e h
  | daa => exact effect_daa h
  | cpl => exact effect_cpl h
  | scf => exact effect_scf h
  | ccf => exact effect_ccf h
  | ldRR dst src => exact effect_ldRR dst src h
  | ldRHl dst => exact effect_ldRHl dst h
  | ldHlR r => exact effect_ldHlR r h
  | halt => exact effect_halt h
  | addAR r => exact effect_addAR r h
  | addAHl => exact effect_addAHl h
  | addAN8 n => exact effect_addAN8 n h
  | adcAR r => exact effect_adcAR r h
  | adcAHl => exact effect_adcAHl h
  | adcAN8 n => exact effect_adcAN8 n h
  | subAR r => exact effect_subAR r h
  | subAHl => exact effect_subAHl h
  | subAN8 n => exact effect_subAN8 n h
  | sbcAR r => exact effect_sbcAR r h
  | sbcAHl => exact effect_sbcAHl h
  | sbcAN8 n => exact effect_sbcAN8 n h
  | andAR r => exact effect_andAR r h
  | andAHl => exact effect_andAHl h
  | andAN8 n => exact effect_andAN8 n h
  | xorAR r => exact effect_xorAR r h
  | xorAHl => exact effect_xorAHl h
  | xorAN8 n => exact effect_xorAN8 n h
  | orAR r => exact effect_orAR r h
  | orAHl => exact effect_orAHl h
  | orAN8 n => exact effect_orAN8 n h
  | cpAR r => exact effect_cpAR r h
  | cpAHl => exact effect_cpAHl h
  | cpAN8 n => exact effect_cpAN8 n h
  | retCc cc => exact effect_retCc cc h
  | popRr p => exact effect_popRr p h
  | popAf => exact effect_popAf h
  | jpCcN16 cc n => exact effect_jpCcN16 cc n h
  | jpN16 n => exact effect_jpN16 n h
  | callCcN16 cc n => exact effect_callCcN16 cc n h
  | pushRr p => exact effect_pushRr p h
  | pushAf => exact effect_pushAf h
  | rst k => exact effect_rst k h
  | ret => exact effect_ret h
  | prefixCb op2 => exact effect_prefixCb op2 h
  | callN16 n => exact effect_callN16 n h
  | reti => exact effect_reti h
  | ldhN8A n => exact effect_ldhN8A n h
  | ldhCA => exact effect_ldhCA h
  | ldhAN8 n => exact effect_ldhAN8 n h
  | ldhAC => exact effect_ldhAC h
  | addSpS8 e => exact effect_addSpS8 e h
  | jpHl => exact effect_jpHl h
  | ldN16A n => exact effect_ldN16A n h
  | ldAN16 n => exact effect_ldAN16 n h
  | di => exact effect_di h
  | ei => exact effect_ei h
  | ldHlSpS8 e => exact effect_ldHlSpS8 e h
  | ldSpHl => exact effect_ldSpHl h
  | illegal op => exact effect_illegal op h
  | rlcR r => exact effect_rlcR r h
  | rlcHl => exact effect_rlcHl h
  | rrcR r => exact effect_rrcR r h
  | rrcHl => exact effect_rrcHl h
  | rlR r => exact effect_rlR r h
  | rlHl => exact effect_rlHl h
  | rrR r => exact effect_rrR r h
  | rrHl => exact effect_rrHl h
  | slaR r => exact effect_slaR r h
  | slaHl => exact effect_slaHl h
  | sraR r => exact effect_sraR r h
  | sraHl => exact effect_sraHl h
  | swapR r => exact effect_swapR r h
  | swapHl => exact effect_swapHl h
  | srlR r => exact effect_srlR r h
  | srlHl => exact effect_srlHl h
  | bitBR b r => exact effect_bitBR b r h
  | bitBHl b => exact effect_bitBHl b h
  | resBR b r => exact effect_resBR b r h
  | resBHl b => exact effect_resBHl b h
  | setBR b r => exact effect_setBR b r h
  | setBHl b => exact effect_setBHl b h

end Sys2Proof.Machine
end

