-- ==== Sys2Proof/Laws/Step.lean ====
section
/-! SUPPORT. What the parts of a step keep: the host's action, the interrupt service, the fetch, an instruction, the
countdown of `EI`, the devices (60_exceptions R300 to R304, R313, R370). -/

namespace Sys2Proof.Machine

/-! ## The invariant between the parts of a step -/

/-- The clauses of the invariant that hold in the middle of a step too: all but the one on `ime_delay` and the one on
`frame_cycles`. -/
structure PartsOk (s : State) : Prop extends DevicesOk s where
  timer : s.TimerOk
  dma : s.DmaOk
  ppuCounter : s.PpuCounterOk
  flags : s.FlagsOk

theorem State.Inv.partsOk {s : State} (h : s.Inv) : PartsOk s :=
  { toDevicesOk := h.devicesOk, timer := h.timer, dma := h.dma, ppuCounter := h.ppuCounter, flags := h.flags }

theorem PartsOk.congr {s t : State} (h : PartsOk s) (g : SameDevices s t) (hf : t.f &&& 0x0F = 0) : PartsOk t :=
  { toDevicesOk := h.toDevicesOk.congr g.mem g.ly g.sprites g.bootRomEnabled g.cfg g.ppuMode
    timer := by rw [State.TimerOk, g.divAcc, g.timaAcc]; exact h.timer
    dma := by rw [State.DmaOk, g.dmaCounter, g.dmaRunning]; exact h.dma
    ppuCounter := by rw [State.PpuCounterOk, g.ppuCounter, g.ppuMode]; exact h.ppuCounter
    flags := hf }

/-- A raw store outside LY, STAT and LYC keeps the invariant. -/
theorem PartsOk.rawWrite {s : State} (h : PartsOk s) {a : Word} (v : Byte) (h1 : (0xFF44 : Word) ≠ a)
    (h2 : (0xFF41 : Word) ≠ a) (h3 : (0xFF45 : Word) ≠ a) : PartsOk (Machine.rawWrite s a v) :=
  { toDevicesOk := h.toDevicesOk.rawWrite v h1 h2 h3, timer := h.timer, dma := h.dma, ppuCounter := h.ppuCounter
    flags := h.flags }

/-- A CPU store keeps the invariant (R36, "over every ROM"). -/
theorem PartsOk.busWrite {s : State} (h : PartsOk s) (a : Word) (v : Byte) : PartsOk (Machine.busWrite s a v) :=
  { toDevicesOk := h.toDevicesOk.busWrite a v
    timer := by
      rcases busWrite_timer s a v with ⟨e1, e2⟩ | ⟨e1, e2⟩ <;> rw [State.TimerOk, e1, e2]
      · exact h.timer
      · exact ⟨Nat.zero_lt_succ _, Nat.zero_lt_succ _⟩
    dma := by
      rcases busWrite_dma s a v with ⟨e1, e2⟩ | ⟨e1, e2⟩ <;> rw [State.DmaOk, e1, e2]
      · exact h.dma
      · exact ⟨Nat.zero_le _, fun _ => Nat.zero_lt_succ _⟩
    ppuCounter := by rw [State.PpuCounterOk, busWrite_ppuCounter, busWrite_ppuMode]; exact h.ppuCounter
    flags := by rw [State.FlagsOk, busWrite_f]; exact h.flags }

theorem PartsOk.stores {s : State} (ws : List (Word × Byte)) (h : PartsOk s) : PartsOk (Machine.stores ws s) := by
  induction ws generalizing s with
  | nil => exact h
  | cons w ws ih => exact ih (h.busWrite w.1 w.2)

/-! ## The parts (R300) -/

theorem PartsOk.request {s : State} (h : PartsOk s) (i : Nat) : PartsOk (Machine.request s i) :=
  h.rawWrite _ (by decide) (by decide) (by decide)

/-- The invariant does not look at the buttons, `running`, the frame count, the step's outputs or the host's queue. -/
theorem PartsOk.host {s : State} (h : PartsOk s) (b : Buttons) (r : Bool) (n c : Nat) (px : List Pixel)
    (so : List Byte) (q : List HostInput) :
    PartsOk { s with buttons := b, running := r, frameCycles := n, cycles := c, pixelOut := px, serialOut := so
                     hostInputs := q } :=
  { toDevicesOk := h.toDevicesOk.congr rfl rfl rfl rfl rfl rfl, timer := h.timer, dma := h.dma
    ppuCounter := h.ppuCounter, flags := h.flags }

theorem PartsOk.applyHostInput {s : State} (h : PartsOk s) (i : HostInput) : PartsOk (Machine.applyHostInput s i) := by
  unfold Machine.applyHostInput
  split
  · exact (h.request 4).host _ _ _ _ _ _ _
  · exact h.host _ _ _ _ _ _ _

theorem PartsOk.hostBoundary {s : State} (h : PartsOk s) : PartsOk (Machine.hostBoundary s) := by
  unfold Machine.hostBoundary
  split
  · split
    · exact h.host _ _ _ _ _ _ _
    · exact (h.applyHostInput _).host _ _ _ _ _ _ _
  · exact h

/-- What the host leaves alone. -/
theorem applyHostInput_eq (s : State) (i : HostInput) :
    ∃ m, Machine.applyHostInput s i = { s with mem := m, buttons := i.buttons, running := s.running && !i.stop } := by
  unfold Machine.applyHostInput
  split
  · exact ⟨_, rfl⟩
  · exact ⟨s.mem, rfl⟩

/-- After the host's turn the frame count is below a frame (R301). -/
theorem hostBoundary_frameCycles (s : State) : (Machine.hostBoundary s).frameCycles < cyclesPerFrame := by
  unfold Machine.hostBoundary
  split
  · split <;> exact Nat.zero_lt_succ _
  · rename_i h
    simp only [atFrameBoundary, Bool.or_eq_true, beq_iff_eq, decide_eq_true_eq, not_or, Nat.not_le] at h
    exact h.2

/-- The host leaves the parameters and `ime_delay` alone. -/
theorem hostBoundary_imeDelay (s : State) :
    (Machine.hostBoundary s).cfg = s.cfg ∧ (Machine.hostBoundary s).imeDelay = s.imeDelay := by
  unfold Machine.hostBoundary
  split
  · split
    · exact ⟨rfl, rfl⟩
    · rename_i i is _
      obtain ⟨m, e⟩ := applyHostInput_eq s i
      rw [e]
      exact ⟨rfl, rfl⟩
  · exact ⟨rfl, rfl⟩

/-- An interrupt entry changes the devices by its two stores and the cleared request only. -/
theorem PartsOk.enterInterrupt {s : State} (h : PartsOk s) (i : Nat) : PartsOk (Machine.enterInterrupt s i) := by
  let s1 : State := { s with ime := false, imeDelay := if s.cfg.eiDelay then 0 else s.imeDelay }
  have h1 : PartsOk s1 := h.congr (sameDevices_registers s _ _ _ _ _ _ _ _ _ _ _ _ _ _ _) h.flags
  have h2 : PartsOk (Machine.push16 s1 s1.pc) :=
    ((h1.busWrite (s1.sp - 1) (hiByte s1.pc)).busWrite (s1.sp - 2) (loByte s1.pc)).congr
      (sameDevices_registers _ _ _ _ _ _ _ _ _ _ _ _ _ _ _ _) (by rw [push16_f]; exact h1.flags)
  exact (h2.rawWrite (a := 0xFF0F) _ (by decide) (by decide) (by decide)).congr
    (sameDevices_registers _ _ _ _ _ _ _ _ _ _ _ _ _ _ _ _) (by
      show (Machine.push16 s1 s1.pc).f &&& 0x0F = 0
      rw [push16_f]; exact h1.flags)

theorem PartsOk.serviceInterrupts {s : State} (h : PartsOk s) : PartsOk (Machine.serviceInterrupts s) := by
  have h1 : PartsOk { s with halted := false } :=
    h.congr (sameDevices_registers s _ _ _ _ _ _ _ _ _ _ _ _ _ _ _) h.flags
  rcases serviceInterrupts_cases s with ⟨-, e⟩ | ⟨-, -, e⟩ | ⟨-, -, e⟩ <;> rw [e]
  · exact h
  · exact h1
  · exact h1.enterInterrupt _

/-- What the service does besides: at most 20 T-cycles, `ime_delay` kept or cleared, the frame count kept. -/
theorem serviceInterrupts_counts (s : State) :
    ((Machine.serviceInterrupts s).cycles = s.cycles ∨ (Machine.serviceInterrupts s).cycles = s.cycles + 20) ∧
    ((Machine.serviceInterrupts s).imeDelay = s.imeDelay ∨ (Machine.serviceInterrupts s).imeDelay = 0) ∧
    (Machine.serviceInterrupts s).cfg = s.cfg ∧ (Machine.serviceInterrupts s).frameCycles = s.frameCycles ∧
    (Machine.serviceInterrupts s).running = s.running := by
  rcases serviceInterrupts_cases s with ⟨-, e⟩ | ⟨-, -, e⟩ | ⟨-, -, e⟩ <;> rw [e]
  · exact ⟨.inl rfl, .inl rfl, rfl, rfl, rfl⟩
  · exact ⟨.inl rfl, .inl rfl, rfl, rfl, rfl⟩
  · refine ⟨.inr ?_, ?_, ?_, ?_, ?_⟩
    · show (Machine.push16 _ _).cycles + 20 = _
      rw [push16_cycles]
    · show (Machine.push16 _ _).imeDelay = _ ∨ (Machine.push16 _ _).imeDelay = _
      rw [push16_imeDelay]
      dsimp only
      split
      · exact .inr rfl
      · exact .inl rfl
    · show (Machine.push16 _ _).cfg = _
      rw [push16_cfg]
    · show (Machine.push16 _ _).frameCycles = _
      rw [push16_frameCycles]
    · show (Machine.push16 _ _).running = _
      rw [push16_running]

/-- A fetched byte moves PC or uses the halt bug up, and changes nothing else (R65). -/
theorem afterFetch_eq (s : State) : ∃ p b, Machine.afterFetch s = { s with pc := p, haltBug := b } := by
  unfold Machine.afterFetch
  split
  · exact ⟨s.pc, false, rfl⟩
  · exact ⟨s.pc + 1, s.haltBug, rfl⟩

/-- Fetching an instruction moves PC or uses the halt bug up, and changes nothing else (R65, R66). -/
theorem fetchInstr_eq (s : State) : ∃ p b, (Machine.fetchInstr s).2 = { s with pc := p, haltBug := b } := by
  obtain ⟨p, b, e1⟩ := afterFetch_eq s
  obtain ⟨p2, b2, e2⟩ := afterFetch_eq (Machine.afterFetch s)
  obtain ⟨p3, b3, e3⟩ := afterFetch_eq (Machine.afterFetch (Machine.afterFetch s))
  unfold Machine.fetchInstr
  dsimp only
  split
  · exact ⟨p, b, e1⟩
  · exact ⟨p2, b2, by dsimp only; rw [e2, e1]⟩
  · exact ⟨p3, b3, by dsimp only; rw [e3, e2, e1]⟩

/-- An instruction keeps the invariant. -/
theorem PartsOk.exec {s t : State} (h : PartsOk s) {i : Instr} (he : Machine.exec i s = .next t) : PartsOk t := by
  obtain ⟨⟨ws, -, hw⟩, hf, -, -⟩ := exec_effect i he
  exact (h.stores ws).congr hw (hf h.flags)

/-- The countdown of `EI` changes IME and `ime_delay` only (R254). -/
theorem promoteIme_eq (s : State) : ∃ b n, Machine.promoteIme s = { s with ime := b, imeDelay := n } := by
  unfold Machine.promoteIme
  split
  · exact ⟨_, _, rfl⟩
  · exact ⟨s.ime, s.imeDelay, rfl⟩

theorem promoteIme_imeDelay (s : State) :
    (Machine.promoteIme s).imeDelay = if s.cfg.eiDelay then s.imeDelay - 1 else s.imeDelay := by
  unfold Machine.promoteIme
  by_cases h : s.cfg.eiDelay = true
  · by_cases h0 : 0 < s.imeDelay
    · rw [if_pos (by rw [h, decide_eq_true h0]; rfl), if_pos h]
    · rw [if_neg (by rw [decide_eq_false h0, Bool.and_false]; exact Bool.false_ne_true), if_pos h]
      omega
  · rw [if_neg (by rw [Bool.eq_false_iff.mpr h]; exact Bool.false_ne_true), if_neg h]

theorem PartsOk.promoteIme {s : State} (h : PartsOk s) : PartsOk (Machine.promoteIme s) := by
  obtain ⟨b, n, e⟩ := promoteIme_eq s
  rw [e]
  exact h.congr (sameDevices_registers s _ _ _ _ _ _ _ _ _ _ _ _ _ _ _) h.flags

theorem PartsOk.advanceDevices {s : State} (h : PartsOk s) : PartsOk (Machine.advanceDevices s) := by
  obtain ⟨m1, p, n, l, sp, px, e1⟩ := ppuStep_eq s s.cycles
  obtain ⟨m2, ta, e2⟩ := timerStep_eq (ppuStep s s.cycles) s.cycles
  obtain ⟨r, k, e3⟩ := dmaStep_eq (timerStep (ppuStep s s.cycles) s.cycles) s.cycles
  obtain ⟨m4, so, e4⟩ := serialTap_eq (dmaStep (timerStep (ppuStep s s.cycles) s.cycles) s.cycles)
  have ht : (timerStep (ppuStep s s.cycles) s.cycles).TimerOk :=
    timerStep_timerOk (by rw [State.TimerOk, e1]; exact h.timer) _
  have hd : (dmaStep (timerStep (ppuStep s s.cycles) s.cycles) s.cycles).DmaOk :=
    dmaStep_dmaOk (by rw [State.DmaOk, e2, e1]; exact h.dma) _
  have hp := ppuStep_counterOk s s.cycles
  refine { toDevicesOk := h.toDevicesOk.advanceDevices, timer := ?_, dma := ?_, ppuCounter := ?_, flags := ?_ } <;>
    unfold Machine.advanceDevices <;> dsimp only
  · rw [e4, State.TimerOk]; dsimp only
    rw [e3]; exact ht
  · rw [e4]; exact hd
  · rw [e4, State.PpuCounterOk]; dsimp only
    rw [e3]; dsimp only
    rw [e2]; exact hp
  · rw [e4, e3, e2, e1]; exact h.flags

/-- The devices leave the CPU alone, and the frame count takes the step's T-cycles (R300). -/
theorem advanceDevices_eq (s : State) :
    ∃ m p n l sp px da ta r k so, Machine.advanceDevices s =
      { s with mem := m, ppuMode := p, ppuCounter := n, ly := l, sprites := sp, pixelOut := px, divAcc := da
               timaAcc := ta, dmaRunning := r, dmaCounter := k, serialOut := so
               frameCycles := s.frameCycles + s.cycles } := by
  obtain ⟨m1, p, n, l, sp, px, e1⟩ := ppuStep_eq s s.cycles
  obtain ⟨m2, ta, e2⟩ := timerStep_eq (ppuStep s s.cycles) s.cycles
  obtain ⟨r, k, e3⟩ := dmaStep_eq (timerStep (ppuStep s s.cycles) s.cycles) s.cycles
  obtain ⟨m4, so, e4⟩ := serialTap_eq (dmaStep (timerStep (ppuStep s s.cycles) s.cycles) s.cycles)
  refine ⟨m4, p, n, l, sp, px, (s.divAcc + s.cycles) % 256, ta, r, k, so, ?_⟩
  unfold Machine.advanceDevices
  dsimp only
  rw [e4, e3, e2, e1]

end Sys2Proof.Machine
end

