-- ==== Sys2Proof/Laws/Claims.lean ====
section
/-! SUPPORT. The small lemmas about the words of the claims in Safety.lean: flags, stores that read back, decoding, what
is pending (10_state R12, R13; 20_memory R42, R52; 30_encoding R81; 60_exceptions R312). -/

namespace Sys2Proof.Machine

/-! ## Flags -/

/-- A flags byte shows its four flags. -/
theorem State.hasFlags_of_f {t : State} {z n h c : Bool} (e : t.f = flagsByte z n h c) : t.HasFlags z n h c := by
  unfold State.HasFlags zFlag nFlag hFlag cFlag
  rw [e]
  exact ⟨flagsByte_z z n h c, flagsByte_n z n h c, flagsByte_h z n h c, flagsByte_c z n h c, flagsByte_low z n h c⟩

/-! ## Stores -/

/-- A store leaves the CPU's registers and control flags alone (R52). -/
theorem State.sameCpu_busWrite (s : State) (a : Word) (v : Byte) : s.SameCpu (busWrite s a v) := by
  refine ⟨?_, ?_, ?_, ?_, ?_, ?_, ?_, ?_, ?_, ?_, ?_, ?_, ?_, ?_⟩ <;> simp

/-- Neighbouring addresses are different storage bytes. -/
theorem phys_ne_phys_succ (a : Word) : phys a ≠ phys (a + 1) := by
  have h : (a + 1).toNat = (a.toNat + 1) % 65536 := by simp [BitVec.toNat_add]
  have := a.isLt
  unfold phys
  rw [h]
  split_ifs <;> omega

/-- The two bytes of a push are different storage bytes. -/
theorem phys_push_ne (sp : Word) : phys (sp - 1) ≠ phys (sp - 2) := by
  have h := phys_ne_phys_succ (sp - 2)
  have e : sp - 2 + 1 = sp - 1 := by bv_omega
  rw [e] at h
  exact h.symm

/-- Two stores to different bytes of plain storage both read back. -/
theorem raw_two_busWrites (s : State) {a b : Word} (v w : Byte) (hne : phys a ≠ phys b) (ha : plainStore a = true)
    (hb : plainStore b = true) :
    raw (busWrite (busWrite s a v) b w) a = v ∧ raw (busWrite (busWrite s a v) b w) b = w := by
  rw [busWrite_plain hb, busWrite_plain ha]
  refine ⟨?_, raw_rawWrite_self _ _ _⟩
  rw [raw_rawWrite_ne _ _ hne]
  exact raw_rawWrite_self _ _ _

/-- What neither of two stores can reach stays (R52). -/
theorem raw_two_busWrites_frame (s : State) {a b k : Word} (v w : Byte) (ha : storeReaches a k = false)
    (hb : storeReaches b k = false) : raw (busWrite (busWrite s a v) b w) k = raw s k := by
  rw [raw_busWrite_frame _ hb, raw_busWrite_frame _ ha]

/-! ## Decoding -/

/-- The three-byte form: the opcode, the low byte, the high byte (R81, R88). -/
theorem decodes_three {op : Byte} {w : Word} {i : Instr} (hl : instrLength op = 3)
    (h : decodeBytes op (loByte w) (hiByte w) = i) : Decodes [op, loByte w, hiByte w] i := by
  intro rest
  simp only [List.cons_append, List.nil_append, decode, hl]
  rw [← h]

/-- `0xFF00 + n` (R88). -/
theorem highPage_eq (n : Byte) : highPage n = 0xFF00 + n.setWidth 16 := by
  unfold highPage
  apply BitVec.eq_of_toNat_eq
  rw [word_toNat]
  have := n.isLt
  simp
  omega

/-! ## Requests -/

/-- A bit of `pending` (R312). -/
theorem pending_getLsbD (s : State) (i : Nat) :
    (pending s).getLsbD i = (decide (i < 5) && (raw s 0xFFFF).getLsbD i && (raw s 0xFF0F).getLsbD i) := by
  have h : (0x1F : Byte).getLsbD i = decide (i < 5) := by
    by_cases h8 : i < 8
    · interval_cases i <;> rfl
    · rw [BitVec.getLsbD_of_ge _ _ (by omega), decide_eq_false (by omega)]
  unfold pending
  rw [BitVec.getLsbD_and, BitVec.getLsbD_and, h, Bool.and_comm, Bool.and_assoc]

/-! ## The parts of a step -/

/-- A step of a machine the host leaves running: the service, then a halted tick or one instruction (R300). -/
theorem step_eq_of_running {s : State} (h1 : s.running = true) (h2 : (hostBoundary s).running = true) :
    step s =
      if (serviceInterrupts (beginStep (hostBoundary s))).halted then
        .next (advanceDevices { serviceInterrupts (beginStep (hostBoundary s)) with
          cycles := (serviceInterrupts (beginStep (hostBoundary s))).cycles + 4 })
      else finishInstr (exec (fetchInstr (serviceInterrupts (beginStep (hostBoundary s)))).1
        (fetchInstr (serviceInterrupts (beginStep (hostBoundary s)))).2) := by
  unfold step cpuStep
  rw [if_pos h1, if_pos h2]

end Sys2Proof.Machine
end

