-- ==== Sys2Proof/Laws/PerInstr.lean ====
section
/-! SUPPORT. One lemma per constructor of `Instr`: an encoding begins with the byte that decides its length, and has that
length, 1 to 3 bytes (30_encoding R80, R81). -/

namespace Sys2Proof.Laws.EncodedLength

/-- The encoding is a first byte and as many more as that byte asks for (R80, R81). -/
def Statement (i : Instr) : Prop :=
  i.wf = true → ∃ op rest, i.encode = op :: rest ∧ rest.length + 1 = instrLength op

theorem nop : Statement .nop := fun _ => ⟨_, _, rfl, rfl⟩

theorem ldRrN16 (p : R16) (n : Word) : Statement (.ldRrN16 p n) := by
  intro _
  cases p <;> exact ⟨_, _, rfl, rfl⟩

theorem ldBcA : Statement .ldBcA := fun _ => ⟨_, _, rfl, rfl⟩

theorem ldDeA : Statement .ldDeA := fun _ => ⟨_, _, rfl, rfl⟩

theorem ldHlIncA : Statement .ldHlIncA := fun _ => ⟨_, _, rfl, rfl⟩

theorem ldHlDecA : Statement .ldHlDecA := fun _ => ⟨_, _, rfl, rfl⟩

theorem incRr (p : R16) : Statement (.incRr p) := by
  intro _
  cases p <;> exact ⟨_, _, rfl, rfl⟩

theorem incR (r : Reg8) : Statement (.incR r) := by
  intro _
  cases r <;> exact ⟨_, _, rfl, rfl⟩

theorem incHl : Statement .incHl := fun _ => ⟨_, _, rfl, rfl⟩

theorem decR (r : Reg8) : Statement (.decR r) := by
  intro _
  cases r <;> exact ⟨_, _, rfl, rfl⟩

theorem decHl : Statement .decHl := fun _ => ⟨_, _, rfl, rfl⟩

theorem ldRN8 (r : Reg8) (n : Byte) : Statement (.ldRN8 r n) := by
  intro _
  cases r <;> exact ⟨_, _, rfl, rfl⟩

theorem ldHlN8 (n : Byte) : Statement (.ldHlN8 n) := fun _ => ⟨_, _, rfl, rfl⟩

theorem rlca : Statement .rlca := fun _ => ⟨_, _, rfl, rfl⟩

theorem rrca : Statement .rrca := fun _ => ⟨_, _, rfl, rfl⟩

theorem rla : Statement .rla := fun _ => ⟨_, _, rfl, rfl⟩

theorem rra : Statement .rra := fun _ => ⟨_, _, rfl, rfl⟩

theorem ldN16Sp (n : Word) : Statement (.ldN16Sp n) := fun _ => ⟨_, _, rfl, rfl⟩

theorem addHlRr (p : R16) : Statement (.addHlRr p) := by
  intro _
  cases p <;> exact ⟨_, _, rfl, rfl⟩

theorem ldABc : Statement .ldABc := fun _ => ⟨_, _, rfl, rfl⟩

theorem ldADe : Statement .ldADe := fun _ => ⟨_, _, rfl, rfl⟩

theorem ldAHlInc : Statement .ldAHlInc := fun _ => ⟨_, _, rfl, rfl⟩

theorem ldAHlDec : Statement .ldAHlDec := fun _ => ⟨_, _, rfl, rfl⟩

theorem decRr (p : R16) : Statement (.decRr p) := by
  intro _
  cases p <;> exact ⟨_, _, rfl, rfl⟩

theorem stop (pad : Byte) : Statement (.stop pad) := fun _ => ⟨_, _, rfl, rfl⟩

theorem jrS8 (e : Byte) : Statement (.jrS8 e) := fun _ => ⟨_, _, rfl, rfl⟩

theorem jrCcS8 (cc : Cond) (e : Byte) : Statement (.jrCcS8 cc e) := by
  intro _
  cases cc <;> exact ⟨_, _, rfl, rfl⟩

theorem daa : Statement .daa := fun _ => ⟨_, _, rfl, rfl⟩

theorem cpl : Statement .cpl := fun _ => ⟨_, _, rfl, rfl⟩

theorem scf : Statement .scf := fun _ => ⟨_, _, rfl, rfl⟩

theorem ccf : Statement .ccf := fun _ => ⟨_, _, rfl, rfl⟩

theorem ldRR (dst : Reg8) (src : Reg8) : Statement (.ldRR dst src) := by
  intro _
  cases dst <;> cases src <;> exact ⟨_, _, rfl, rfl⟩

theorem ldRHl (dst : Reg8) : Statement (.ldRHl dst) := by
  intro _
  cases dst <;> exact ⟨_, _, rfl, rfl⟩

theorem ldHlR (r : Reg8) : Statement (.ldHlR r) := by
  intro _
  cases r <;> exact ⟨_, _, rfl, rfl⟩

theorem halt : Statement .halt := fun _ => ⟨_, _, rfl, rfl⟩

theorem addAR (r : Reg8) : Statement (.addAR r) := by
  intro _
  cases r <;> exact ⟨_, _, rfl, rfl⟩

theorem addAHl : Statement .addAHl := fun _ => ⟨_, _, rfl, rfl⟩

theorem addAN8 (n : Byte) : Statement (.addAN8 n) := fun _ => ⟨_, _, rfl, rfl⟩

theorem adcAR (r : Reg8) : Statement (.adcAR r) := by
  intro _
  cases r <;> exact ⟨_, _, rfl, rfl⟩

theorem adcAHl : Statement .adcAHl := fun _ => ⟨_, _, rfl, rfl⟩

theorem adcAN8 (n : Byte) : Statement (.adcAN8 n) := fun _ => ⟨_, _, rfl, rfl⟩

theorem subAR (r : Reg8) : Statement (.subAR r) := by
  intro _
  cases r <;> exact ⟨_, _, rfl, rfl⟩

theorem subAHl : Statement .subAHl := fun _ => ⟨_, _, rfl, rfl⟩

theorem subAN8 (n : Byte) : Statement (.subAN8 n) := fun _ => ⟨_, _, rfl, rfl⟩

theorem sbcAR (r : Reg8) : Statement (.sbcAR r) := by
  intro _
  cases r <;> exact ⟨_, _, rfl, rfl⟩

theorem sbcAHl : Statement .sbcAHl := fun _ => ⟨_, _, rfl, rfl⟩

theorem sbcAN8 (n : Byte) : Statement (.sbcAN8 n) := fun _ => ⟨_, _, rfl, rfl⟩

theorem andAR (r : Reg8) : Statement (.andAR r) := by
  intro _
  cases r <;> exact ⟨_, _, rfl, rfl⟩

theorem andAHl : Statement .andAHl := fun _ => ⟨_, _, rfl, rfl⟩

theorem andAN8 (n : Byte) : Statement (.andAN8 n) := fun _ => ⟨_, _, rfl, rfl⟩

theorem xorAR (r : Reg8) : Statement (.xorAR r) := by
  intro _
  cases r <;> exact ⟨_, _, rfl, rfl⟩

theorem xorAHl : Statement .xorAHl := fun _ => ⟨_, _, rfl, rfl⟩

theorem xorAN8 (n : Byte) : Statement (.xorAN8 n) := fun _ => ⟨_, _, rfl, rfl⟩

theorem orAR (r : Reg8) : Statement (.orAR r) := by
  intro _
  cases r <;> exact ⟨_, _, rfl, rfl⟩

theorem orAHl : Statement .orAHl := fun _ => ⟨_, _, rfl, rfl⟩

theorem orAN8 (n : Byte) : Statement (.orAN8 n) := fun _ => ⟨_, _, rfl, rfl⟩

theorem cpAR (r : Reg8) : Statement (.cpAR r) := by
  intro _
  cases r <;> exact ⟨_, _, rfl, rfl⟩

theorem cpAHl : Statement .cpAHl := fun _ => ⟨_, _, rfl, rfl⟩

theorem cpAN8 (n : Byte) : Statement (.cpAN8 n) := fun _ => ⟨_, _, rfl, rfl⟩

theorem retCc (cc : Cond) : Statement (.retCc cc) := by
  intro _
  cases cc <;> exact ⟨_, _, rfl, rfl⟩

theorem popRr (p : R16S) : Statement (.popRr p) := by
  intro h
  cases p
  · exact ⟨_, _, rfl, rfl⟩
  · exact ⟨_, _, rfl, rfl⟩
  · exact ⟨_, _, rfl, rfl⟩
  · cases h

theorem popAf : Statement .popAf := fun _ => ⟨_, _, rfl, rfl⟩

theorem jpCcN16 (cc : Cond) (n : Word) : Statement (.jpCcN16 cc n) := by
  intro _
  cases cc <;> exact ⟨_, _, rfl, rfl⟩

theorem jpN16 (n : Word) : Statement (.jpN16 n) := fun _ => ⟨_, _, rfl, rfl⟩

theorem callCcN16 (cc : Cond) (n : Word) : Statement (.callCcN16 cc n) := by
  intro _
  cases cc <;> exact ⟨_, _, rfl, rfl⟩

theorem pushRr (p : R16S) : Statement (.pushRr p) := by
  intro h
  cases p
  · exact ⟨_, _, rfl, rfl⟩
  · exact ⟨_, _, rfl, rfl⟩
  · exact ⟨_, _, rfl, rfl⟩
  · cases h

theorem pushAf : Statement .pushAf := fun _ => ⟨_, _, rfl, rfl⟩

theorem rst (k : Fin 8) : Statement (.rst k) := by
  intro _
  refine ⟨_, _, rfl, ?_⟩
  fin_cases k <;> rfl

theorem ret : Statement .ret := fun _ => ⟨_, _, rfl, rfl⟩

theorem prefixCb (op2 : Byte) : Statement (.prefixCb op2) := fun _ => ⟨_, _, rfl, rfl⟩

theorem callN16 (n : Word) : Statement (.callN16 n) := fun _ => ⟨_, _, rfl, rfl⟩

theorem reti : Statement .reti := fun _ => ⟨_, _, rfl, rfl⟩

theorem ldhN8A (n : Byte) : Statement (.ldhN8A n) := fun _ => ⟨_, _, rfl, rfl⟩

theorem ldhCA : Statement .ldhCA := fun _ => ⟨_, _, rfl, rfl⟩

theorem ldhAN8 (n : Byte) : Statement (.ldhAN8 n) := fun _ => ⟨_, _, rfl, rfl⟩

theorem ldhAC : Statement .ldhAC := fun _ => ⟨_, _, rfl, rfl⟩

theorem addSpS8 (e : Byte) : Statement (.addSpS8 e) := fun _ => ⟨_, _, rfl, rfl⟩

theorem jpHl : Statement .jpHl := fun _ => ⟨_, _, rfl, rfl⟩

theorem ldN16A (n : Word) : Statement (.ldN16A n) := fun _ => ⟨_, _, rfl, rfl⟩

theorem ldAN16 (n : Word) : Statement (.ldAN16 n) := fun _ => ⟨_, _, rfl, rfl⟩

theorem di : Statement .di := fun _ => ⟨_, _, rfl, rfl⟩

theorem ei : Statement .ei := fun _ => ⟨_, _, rfl, rfl⟩

theorem ldHlSpS8 (e : Byte) : Statement (.ldHlSpS8 e) := fun _ => ⟨_, _, rfl, rfl⟩

theorem ldSpHl : Statement .ldSpHl := fun _ => ⟨_, _, rfl, rfl⟩

theorem illegal (op : Byte) : Statement (.illegal op) := by
  intro h
  refine ⟨op, [], rfl, ?_⟩
  have h : illegalOpcodes.contains op = true := h
  simp only [illegalOpcodes, List.contains_eq_mem, List.mem_cons, List.not_mem_nil, or_false, decide_eq_true_eq] at h
  rcases h with h | h | h | h | h | h | h | h | h | h | h <;> rw [h] <;> rfl

theorem rlcR (r : Reg8) : Statement (.rlcR r) := fun _ => ⟨_, _, rfl, rfl⟩

theorem rlcHl : Statement .rlcHl := fun _ => ⟨_, _, rfl, rfl⟩

theorem rrcR (r : Reg8) : Statement (.rrcR r) := fun _ => ⟨_, _, rfl, rfl⟩

theorem rrcHl : Statement .rrcHl := fun _ => ⟨_, _, rfl, rfl⟩

theorem rlR (r : Reg8) : Statement (.rlR r) := fun _ => ⟨_, _, rfl, rfl⟩

theorem rlHl : Statement .rlHl := fun _ => ⟨_, _, rfl, rfl⟩

theorem rrR (r : Reg8) : Statement (.rrR r) := fun _ => ⟨_, _, rfl, rfl⟩

theorem rrHl : Statement .rrHl := fun _ => ⟨_, _, rfl, rfl⟩

theorem slaR (r : Reg8) : Statement (.slaR r) := fun _ => ⟨_, _, rfl, rfl⟩

theorem slaHl : Statement .slaHl := fun _ => ⟨_, _, rfl, rfl⟩

theorem sraR (r : Reg8) : Statement (.sraR r) := fun _ => ⟨_, _, rfl, rfl⟩

theorem sraHl : Statement .sraHl := fun _ => ⟨_, _, rfl, rfl⟩

theorem swapR (r : Reg8) : Statement (.swapR r) := fun _ => ⟨_, _, rfl, rfl⟩

theorem swapHl : Statement .swapHl := fun _ => ⟨_, _, rfl, rfl⟩

theorem srlR (r : Reg8) : Statement (.srlR r) := fun _ => ⟨_, _, rfl, rfl⟩

theorem srlHl : Statement .srlHl := fun _ => ⟨_, _, rfl, rfl⟩

theorem bitBR (b : Fin 8) (r : Reg8) : Statement (.bitBR b r) := fun _ => ⟨_, _, rfl, rfl⟩

theorem bitBHl (b : Fin 8) : Statement (.bitBHl b) := fun _ => ⟨_, _, rfl, rfl⟩

theorem resBR (b : Fin 8) (r : Reg8) : Statement (.resBR b r) := fun _ => ⟨_, _, rfl, rfl⟩

theorem resBHl (b : Fin 8) : Statement (.resBHl b) := fun _ => ⟨_, _, rfl, rfl⟩

theorem setBR (b : Fin 8) (r : Reg8) : Statement (.setBR b r) := fun _ => ⟨_, _, rfl, rfl⟩

theorem setBHl (b : Fin 8) : Statement (.setBHl b) := fun _ => ⟨_, _, rfl, rfl⟩

end Sys2Proof.Laws.EncodedLength
end

