-- ==== Sys2Proof/Tests/Slice0.lean ====
section
/-! SUPPORT. Tests. What is expected comes from the spec: its encodings, its vectors (95_test_vectors) and its rules. The
last part shows, for each obligation with hypotheses, states and operands that meet them. -/

set_option Elab.async false

namespace Sys2Proof.Tests

open Sys2Proof.Machine

/-! ## Helpers -/

/-- The spec's base state: reset, the registers of 95_test_vectors' conventions. -/
def base : State :=
  { State.reset with a := 0x00, f := 0x00, b := 0x00, c := 0x00, d := 0x00, e := 0x00, h := 0xC0, l := 0x00, sp := 0xD000 }

/-- `EI_DELAY = 1`. -/
def delayed : Config := { Config.standard with eiDelay := true }

/-- The bytes at 0x0100. -/
def place (bytes : List Byte) (s : State) : State := storeBytes bytes 0x0100 s

/-- Bytes of storage set, one after the other. -/
def poke (cells : List (Word × Byte)) (s : State) : State := cells.foldl (fun t x => rawWrite t x.1 x.2) s

/-- The state after one step; a stopped machine stays. -/
def after (s : State) : State :=
  match step s with
  | .next t => t
  | .fault _ => { s with running := false }
  | .refused _ => { s with running := false }

/-- One row of 95_test_vectors part 2: the bytes at 0x0100, the start, the registers at the end, the bytes it names, the
T-cycles. -/
structure Row where
  bytes : List Byte
  start : State
  cells : List (Word × Byte)
  finish : State
  stored : List (Word × Byte)
  cycles : Nat

/-- One step from the row's start ends as the row says. -/
def Row.holds (x : Row) : Bool :=
  let t := after (place x.bytes (poke x.cells x.start))
  let u := x.finish
  t.running && t.a == u.a && t.f == u.f && t.b == u.b && t.c == u.c && t.d == u.d && t.e == u.e && t.h == u.h && t.l == u.l &&
    t.sp == u.sp && t.pc == u.pc && t.ime == u.ime && t.halted == u.halted && t.cycles == x.cycles &&
    x.stored.all (fun y => raw t y.1 == y.2)

/-- Scenario 6's patterns and palettes (95_test_vectors 1.4). -/
def scenario6 : State :=
  poke [(0x8020, 0xF0), (0x8021, 0xF0), (0xFF40, 0x93), (0xFF47, 0xE4), (0xFF48, 0x1B)] base

/-! ## Terms that are no instructions (R91, R137, R139) -/

theorem test_wf_push_af_form : (Instr.pushRr .af).wf = false := by decide
theorem test_wf_pop_af_form : (Instr.popRr .af).wf = false := by decide
theorem test_wf_legal_opcode_as_illegal : (Instr.illegal 0x00).wf = false := by decide
theorem test_wf_prefix_as_illegal : (Instr.illegal 0xCB).wf = false := by decide

/-! ## Decoding -/

/-- The bytes decode to the instruction with nothing left. -/
def decodesTo (x : List Byte × Instr) : Bool :=
  match decode x.1 with
  | .ok (i, rest) => i == x.2 && rest.isEmpty
  | .error _ => false

theorem test_decode_no_byte : decode [] = .error .noByte := rfl
theorem test_decode_operand_missing : decode [0xC3, 0x50] = .error (.operandMissing 0xC3) := rfl
theorem test_decode_prefix_alone : decode [0xCB] = .error (.operandMissing 0xCB) := rfl

/-- The row `PREFIX CB` of the table, and a row of the CB page (log 10, log 11). -/
theorem test_table_words : decodeTableWord 8 0xCB = some (.prefixCb 0x00) ∧
    decodeTableWord 16 0xCB37 = some (.swapR .a) ∧ decodeTableWord 8 0x01 = some (.ldRrN16 .bc 0x0000) := by decide +kernel

/-- Words of R100 to R118, from the rules' own encodings. -/
theorem test_decode_load8 : ([
    ([0x41], .ldRR .b .c), ([0x7F], .ldRR .a .a), ([0x0E, 0x99], .ldRN8 .c 0x99), ([0x56], .ldRHl .d),
    ([0x73], .ldHlR .e), ([0x36, 0xAB], .ldHlN8 0xAB), ([0x0A], .ldABc), ([0x1A], .ldADe), ([0x02], .ldBcA),
    ([0x12], .ldDeA), ([0xFA, 0x34, 0x12], .ldAN16 0x1234), ([0xEA, 0x34, 0x12], .ldN16A 0x1234), ([0xF2], .ldhAC),
    ([0xE2], .ldhCA), ([0xF0, 0x44], .ldhAN8 0x44), ([0xE0, 0x46], .ldhN8A 0x46), ([0x22], .ldHlIncA),
    ([0x2A], .ldAHlInc), ([0x32], .ldHlDecA), ([0x3A], .ldAHlDec)] : List (List Byte × Instr)).all decodesTo = true := by decide +kernel

/-- Words of R130 to R140, from the rules' own encodings. -/
theorem test_decode_load16 : ([
    ([0x31, 0xFE, 0xFF], .ldRrN16 .sp 0xFFFE), ([0x08, 0x00, 0xC1], .ldN16Sp 0xC100), ([0xF9], .ldSpHl),
    ([0xF8, 0xFF], .ldHlSpS8 0xFF), ([0xE5], .pushRr .hl), ([0xF5], .pushAf), ([0xD1], .popRr .de), ([0xF1], .popAf)] : List (List Byte × Instr)).all decodesTo = true := by decide +kernel

/-- Words of R152 to R183, from the rules' own encodings. -/
theorem test_decode_alu8 : ([
    ([0x80], .addAR .b), ([0x86], .addAHl), ([0xC6, 0x01], .addAN8 0x01), ([0x89], .adcAR .c), ([0x8E], .adcAHl),
    ([0xCE, 0x01], .adcAN8 0x01), ([0x92], .subAR .d), ([0x96], .subAHl), ([0xD6, 0x01], .subAN8 0x01),
    ([0x9B], .sbcAR .e), ([0x9E], .sbcAHl), ([0xDE, 0x01], .sbcAN8 0x01), ([0xA4], .andAR .h), ([0xA6], .andAHl),
    ([0xE6, 0x0F], .andAN8 0x0F), ([0xAD], .xorAR .l), ([0xAE], .xorAHl), ([0xEE, 0xFF], .xorAN8 0xFF),
    ([0xB7], .orAR .a), ([0xB6], .orAHl), ([0xF6, 0x80], .orAN8 0x80), ([0xB8], .cpAR .b), ([0xBE], .cpAHl),
    ([0xFE, 0x42], .cpAN8 0x42), ([0x24], .incR .h), ([0x34], .incHl), ([0x2D], .decR .l), ([0x35], .decHl),
    ([0x27], .daa), ([0x2F], .cpl), ([0x37], .scf), ([0x3F], .ccf)] : List (List Byte × Instr)).all decodesTo = true := by decide +kernel

/-- Words of R191 to R194, from the rules' own encodings. -/
theorem test_decode_alu16 : ([
    ([0x29], .addHlRr .hl), ([0x13], .incRr .de), ([0x3B], .decRr .sp), ([0xE8, 0xFE], .addSpS8 0xFE)] : List (List Byte × Instr)).all decodesTo = true := by decide +kernel

/-- Words of R200 to R226, from the rules' own encodings. -/
theorem test_decode_rotate_bit : ([
    ([0x07], .rlca), ([0x0F], .rrca), ([0x17], .rla), ([0x1F], .rra), ([0xCB, 0x00], .rlcR .b), ([0xCB, 0x06], .rlcHl),
    ([0xCB, 0x09], .rrcR .c), ([0xCB, 0x0E], .rrcHl), ([0xCB, 0x12], .rlR .d), ([0xCB, 0x16], .rlHl),
    ([0xCB, 0x1B], .rrR .e), ([0xCB, 0x1E], .rrHl), ([0xCB, 0x24], .slaR .h), ([0xCB, 0x26], .slaHl),
    ([0xCB, 0x2D], .sraR .l), ([0xCB, 0x2E], .sraHl), ([0xCB, 0x37], .swapR .a), ([0xCB, 0x36], .swapHl),
    ([0xCB, 0x38], .srlR .b), ([0xCB, 0x3E], .srlHl), ([0xCB, 0x7C], .bitBR 7 .h), ([0xCB, 0x46], .bitBHl 0),
    ([0xCB, 0x87], .resBR 0 .a), ([0xCB, 0x9E], .resBHl 3), ([0xCB, 0xD1], .setBR 2 .c), ([0xCB, 0xFE], .setBHl 7)] : List (List Byte × Instr)).all decodesTo = true := by decide +kernel

/-- Words of R230 to R240, from the rules' own encodings. -/
theorem test_decode_control_flow : ([
    ([0xC3, 0x50, 0x01], .jpN16 0x0150), ([0xDA, 0x00, 0x02], .jpCcN16 .c 0x0200), ([0xE9], .jpHl),
    ([0x18, 0xFE], .jrS8 0xFE), ([0x30, 0xFE], .jrCcS8 .nc 0xFE), ([0xCD, 0x34, 0x12], .callN16 0x1234),
    ([0xC4, 0x34, 0x12], .callCcN16 .nz 0x1234), ([0xC9], .ret), ([0xC8], .retCc .z), ([0xD9], .reti), ([0xDF], .rst 3)] : List (List Byte × Instr)).all decodesTo = true := by decide +kernel

/-- Words of R250 to R256, R91, from the rules' own encodings. -/
theorem test_decode_system : ([
    ([0x00], .nop), ([0x76], .halt), ([0x10, 0x55], .stop 0x55), ([0xF3], .di), ([0xFB], .ei), ([0xD3], .illegal 0xD3),
    ([0xFD], .illegal 0xFD)] : List (List Byte × Instr)).all decodesTo = true := by decide +kernel

/-! ## One step of each of the spec's vectors -/

/-- Vectors of the 8-bit loads (95_test_vectors 2.1). -/
theorem test_vectors_load8 : ([
    ⟨[0x41], { base with c := 0x5A }, [], { { base with c := 0x5A } with f := 0x00, b := 0x5A, pc := 0x0101 }, [], 4⟩,
    ⟨[0x56], base, [(0xC000, 0x77)], { base with f := 0x00, d := 0x77, pc := 0x0101 }, [], 8⟩,
    ⟨[0x73], { base with e := 0x99 }, [], { { base with e := 0x99 } with f := 0x00, pc := 0x0101 }, [(0xC000, 0x99)], 8⟩,
    ⟨[0x36, 0xAB], base, [], { base with f := 0x00, pc := 0x0102 }, [(0xC000, 0xAB)], 12⟩,
    ⟨[0x0A], { base with b := 0xC1, c := 0x23 }, [(0xC123, 0x42)], { { base with b := 0xC1, c := 0x23 } with a := 0x42, f := 0x00, pc := 0x0101 }, [], 8⟩,
    ⟨[0x12], { base with d := 0xC2, e := 0x00, a := 0x66 }, [], { { base with d := 0xC2, e := 0x00, a := 0x66 } with f := 0x00, pc := 0x0101 }, [(0xC200, 0x66)], 8⟩,
    ⟨[0x22], { base with a := 0x11, l := 0xFF }, [], { { base with a := 0x11, l := 0xFF } with f := 0x00, h := 0xC1, l := 0x00, pc := 0x0101 }, [(0xC0FF, 0x11)], 8⟩,
    ⟨[0x3A], base, [(0xC000, 0x21)], { base with a := 0x21, f := 0x00, h := 0xBF, l := 0xFF, pc := 0x0101 }, [], 8⟩,
    ⟨[0xE0, 0x80], { base with a := 0x5A }, [], { { base with a := 0x5A } with f := 0x00, pc := 0x0102 }, [(0xFF80, 0x5A)], 12⟩,
    ⟨[0xF2], { base with c := 0x80 }, [(0xFF80, 0x33)], { { base with c := 0x80 } with a := 0x33, f := 0x00, pc := 0x0101 }, [], 8⟩,
    ⟨[0xEA, 0x00, 0x20], { base with a := 0x0F }, [], { { base with a := 0x0F } with f := 0x00, pc := 0x0103 }, [(0x2000, 0x00)], 16⟩,
    ⟨[0xFA, 0x00, 0xE0], base, [(0xC000, 0x9C)], { base with a := 0x9C, f := 0x00, pc := 0x0103 }, [], 16⟩] : List Row).all Row.holds = true := by decide +kernel

/-- Vectors of the 16-bit loads and the stack (95_test_vectors 2.2). -/
theorem test_vectors_load16_stack : ([
    ⟨[0x31, 0xFE, 0xFF], base, [], { base with f := 0x00, sp := 0xFFFE, pc := 0x0103 }, [], 12⟩,
    ⟨[0x08, 0x00, 0xC1], { base with sp := 0xFFF8 }, [], { { base with sp := 0xFFF8 } with f := 0x00, pc := 0x0103 }, [(0xC100, 0xF8), (0xC101, 0xFF)], 20⟩,
    ⟨[0xF9], { base with h := 0x12, l := 0x34 }, [], { { base with h := 0x12, l := 0x34 } with f := 0x00, sp := 0x1234, pc := 0x0101 }, [], 8⟩,
    ⟨[0xF5], { base with a := 0x12, f := 0xF0 }, [], { { base with a := 0x12, f := 0xF0 } with f := 0xF0, sp := 0xCFFE, pc := 0x0101 }, [(0xCFFE, 0xF0), (0xCFFF, 0x12)], 16⟩,
    ⟨[0xF1], { base with sp := 0xCFFE }, [(0xCFFE, 0xFF), (0xCFFF, 0x12)], { { base with sp := 0xCFFE } with a := 0x12, f := 0xF0, sp := 0xD000, pc := 0x0101 }, [], 12⟩,
    ⟨[0xF8, 0x08], { base with sp := 0xFFF8 }, [], { { base with sp := 0xFFF8 } with f := 0x30, h := 0x00, pc := 0x0102 }, [], 12⟩,
    ⟨[0xF8, 0xFF], { base with sp := 0x0000 }, [], { { base with sp := 0x0000 } with f := 0x00, h := 0xFF, l := 0xFF, pc := 0x0102 }, [], 12⟩] : List Row).all Row.holds = true := by decide +kernel

/-- Vectors of 8-bit arithmetic and logic (95_test_vectors 2.3). -/
theorem test_vectors_alu8_1 : ([
    ⟨[0x80], { base with a := 0xFF, b := 0x01 }, [], { { base with a := 0xFF, b := 0x01 } with a := 0x00, f := 0xB0, pc := 0x0101 }, [], 4⟩,
    ⟨[0xCE, 0x00], { base with a := 0x0F, f := 0x10 }, [], { { base with a := 0x0F, f := 0x10 } with a := 0x10, f := 0x20, pc := 0x0102 }, [], 8⟩,
    ⟨[0xCE, 0xFF], { base with a := 0xFF, f := 0x10 }, [], { { base with a := 0xFF, f := 0x10 } with f := 0x30, pc := 0x0102 }, [], 8⟩,
    ⟨[0xD6, 0x01], { base with a := 0x00 }, [], { { base with a := 0x00 } with a := 0xFF, f := 0x70, pc := 0x0102 }, [], 8⟩,
    ⟨[0xDE, 0xFF], { base with a := 0x00, f := 0x10 }, [], { { base with a := 0x00, f := 0x10 } with f := 0xF0, pc := 0x0102 }, [], 8⟩,
    ⟨[0xDE, 0x0F], { base with a := 0x10, f := 0x10 }, [], { { base with a := 0x10, f := 0x10 } with a := 0x00, f := 0xE0, pc := 0x0102 }, [], 8⟩,
    ⟨[0xE6, 0x0F], { base with a := 0xF0, f := 0x10 }, [], { { base with a := 0xF0, f := 0x10 } with a := 0x00, f := 0xA0, pc := 0x0102 }, [], 8⟩,
    ⟨[0xAF], { base with a := 0x5A, f := 0xF0 }, [], { { base with a := 0x5A, f := 0xF0 } with a := 0x00, f := 0x80, pc := 0x0101 }, [], 4⟩,
    ⟨[0xB6], { base with a := 0x02 }, [(0xC000, 0x81)], { { base with a := 0x02 } with a := 0x83, f := 0x00, pc := 0x0101 }, [], 8⟩,
    ⟨[0xFE, 0x42], { base with a := 0x42 }, [], { { base with a := 0x42 } with f := 0xC0, pc := 0x0102 }, [], 8⟩,
    ⟨[0xFE, 0x43], { base with a := 0x42 }, [], { { base with a := 0x42 } with f := 0x70, pc := 0x0102 }, [], 8⟩,
    ⟨[0x04], { base with b := 0xFF, f := 0x10 }, [], { { base with b := 0xFF, f := 0x10 } with f := 0xB0, b := 0x00, pc := 0x0101 }, [], 4⟩,
    ⟨[0x34], base, [(0xC000, 0x0F)], { base with f := 0x20, pc := 0x0101 }, [(0xC000, 0x10)], 12⟩] : List Row).all Row.holds = true := by decide +kernel

/-- Vectors of 8-bit arithmetic and logic (95_test_vectors 2.3). -/
theorem test_vectors_alu8_2 : ([
    ⟨[0x0D], { base with c := 0x01, f := 0x10 }, [], { { base with c := 0x01, f := 0x10 } with f := 0xD0, c := 0x00, pc := 0x0101 }, [], 4⟩,
    ⟨[0x3D], { base with a := 0x00 }, [], { { base with a := 0x00 } with a := 0xFF, f := 0x60, pc := 0x0101 }, [], 4⟩,
    ⟨[0x35], base, [(0xC000, 0x10)], { base with f := 0x60, pc := 0x0101 }, [(0xC000, 0x0F)], 12⟩,
    ⟨[0x2F], { base with a := 0x35, f := 0x90 }, [], { { base with a := 0x35, f := 0x90 } with a := 0xCA, f := 0xF0, pc := 0x0101 }, [], 4⟩,
    ⟨[0x37], { base with f := 0xE0 }, [], { { base with f := 0xE0 } with f := 0x90, pc := 0x0101 }, [], 4⟩,
    ⟨[0x3F], { base with f := 0xF0 }, [], { { base with f := 0xF0 } with f := 0x80, pc := 0x0101 }, [], 4⟩,
    ⟨[0x3F], { base with f := 0x80 }, [], { { base with f := 0x80 } with f := 0x90, pc := 0x0101 }, [], 4⟩,
    ⟨[0x27], { base with a := 0x7D }, [], { { base with a := 0x7D } with a := 0x83, f := 0x00, pc := 0x0101 }, [], 4⟩,
    ⟨[0x27], { base with a := 0x40, f := 0x20 }, [], { { base with a := 0x40, f := 0x20 } with a := 0x46, f := 0x00, pc := 0x0101 }, [], 4⟩,
    ⟨[0x27], { base with a := 0x9A }, [], { { base with a := 0x9A } with a := 0x00, f := 0x90, pc := 0x0101 }, [], 4⟩,
    ⟨[0x27], { base with a := 0x4B, f := 0x60 }, [], { { base with a := 0x4B, f := 0x60 } with a := 0x45, f := 0x40, pc := 0x0101 }, [], 4⟩,
    ⟨[0x27], { base with a := 0x00, f := 0x50 }, [], { { base with a := 0x00, f := 0x50 } with a := 0xA0, f := 0x50, pc := 0x0101 }, [], 4⟩] : List Row).all Row.holds = true := by decide +kernel

/-- Vectors of 16-bit arithmetic (95_test_vectors 2.4). -/
theorem test_vectors_alu16 : ([
    ⟨[0x09], { base with h := 0x0F, l := 0xFF, b := 0x00, c := 0x01, f := 0x80 }, [], { { base with h := 0x0F, l := 0xFF, b := 0x00, c := 0x01, f := 0x80 } with f := 0xA0, h := 0x10, l := 0x00, pc := 0x0101 }, [], 8⟩,
    ⟨[0x29], { base with h := 0x80, l := 0x00 }, [], { { base with h := 0x80, l := 0x00 } with f := 0x10, h := 0x00, pc := 0x0101 }, [], 8⟩,
    ⟨[0x39], { base with h := 0xFF, l := 0xFF, sp := 0x0001, f := 0xC0 }, [], { { base with h := 0xFF, l := 0xFF, sp := 0x0001, f := 0xC0 } with f := 0xB0, h := 0x00, l := 0x00, pc := 0x0101 }, [], 8⟩,
    ⟨[0x03], { base with b := 0xFF, c := 0xFF, f := 0xF0 }, [], { { base with b := 0xFF, c := 0xFF, f := 0xF0 } with f := 0xF0, b := 0x00, c := 0x00, pc := 0x0101 }, [], 8⟩,
    ⟨[0x3B], { base with sp := 0x0000 }, [], { { base with sp := 0x0000 } with f := 0x00, sp := 0xFFFF, pc := 0x0101 }, [], 8⟩,
    ⟨[0xE8, 0x08], { base with sp := 0xFFF8, f := 0xF0 }, [], { { base with sp := 0xFFF8, f := 0xF0 } with f := 0x30, sp := 0x0000, pc := 0x0102 }, [], 16⟩,
    ⟨[0xE8, 0xFE], { base with sp := 0xD000 }, [], { { base with sp := 0xD000 } with f := 0x00, sp := 0xCFFE, pc := 0x0102 }, [], 16⟩,
    ⟨[0xE8, 0x01], { base with sp := 0x000F }, [], { { base with sp := 0x000F } with f := 0x20, sp := 0x0010, pc := 0x0102 }, [], 16⟩] : List Row).all Row.holds = true := by decide +kernel

/-- Vectors of rotates, shifts and bits (95_test_vectors 2.5). -/
theorem test_vectors_rotate_bit_1 : ([
    ⟨[0x07], { base with a := 0x85, f := 0xF0 }, [], { { base with a := 0x85, f := 0xF0 } with a := 0x0B, f := 0x10, pc := 0x0101 }, [], 4⟩,
    ⟨[0x0F], { base with a := 0x01 }, [], { { base with a := 0x01 } with a := 0x80, f := 0x10, pc := 0x0101 }, [], 4⟩,
    ⟨[0x17], { base with a := 0x80 }, [], { { base with a := 0x80 } with a := 0x00, f := 0x10, pc := 0x0101 }, [], 4⟩,
    ⟨[0x1F], { base with a := 0x01, f := 0x10 }, [], { { base with a := 0x01, f := 0x10 } with a := 0x80, f := 0x10, pc := 0x0101 }, [], 4⟩,
    ⟨[0x07], { base with a := 0x00 }, [], { { base with a := 0x00 } with f := 0x00, pc := 0x0101 }, [], 4⟩,
    ⟨[0xCB, 0x00], { base with b := 0x00 }, [], { { base with b := 0x00 } with f := 0x80, pc := 0x0102 }, [], 8⟩,
    ⟨[0xCB, 0x09], { base with c := 0x01 }, [], { { base with c := 0x01 } with f := 0x10, c := 0x80, pc := 0x0102 }, [], 8⟩,
    ⟨[0xCB, 0x12], { base with d := 0x80, f := 0x10 }, [], { { base with d := 0x80, f := 0x10 } with f := 0x10, d := 0x01, pc := 0x0102 }, [], 8⟩,
    ⟨[0xCB, 0x1B], { base with e := 0x01 }, [], { { base with e := 0x01 } with f := 0x90, e := 0x00, pc := 0x0102 }, [], 8⟩,
    ⟨[0xCB, 0x24], { base with h := 0x80 }, [], { { base with h := 0x80 } with f := 0x90, h := 0x00, pc := 0x0102 }, [], 8⟩,
    ⟨[0xCB, 0x2D], { base with l := 0x81 }, [], { { base with l := 0x81 } with f := 0x10, l := 0xC0, pc := 0x0102 }, [], 8⟩,
    ⟨[0xCB, 0x37], { base with a := 0xF0, f := 0xF0 }, [], { { base with a := 0xF0, f := 0xF0 } with a := 0x0F, f := 0x00, pc := 0x0102 }, [], 8⟩,
    ⟨[0xCB, 0x3E], base, [(0xC000, 0x01)], { base with f := 0x90, pc := 0x0102 }, [(0xC000, 0x00)], 16⟩] : List Row).all Row.holds = true := by decide +kernel

/-- Vectors of rotates, shifts and bits (95_test_vectors 2.5). -/
theorem test_vectors_rotate_bit_2 : ([
    ⟨[0xCB, 0x7C], { base with h := 0x80, f := 0x10 }, [], { { base with h := 0x80, f := 0x10 } with f := 0x30, pc := 0x0102 }, [], 8⟩,
    ⟨[0xCB, 0x46], { base with f := 0x40 }, [(0xC000, 0xFE)], { { base with f := 0x40 } with f := 0xA0, pc := 0x0102 }, [], 12⟩,
    ⟨[0xCB, 0x87], { base with a := 0xFF, f := 0xF0 }, [], { { base with a := 0xFF, f := 0xF0 } with a := 0xFE, f := 0xF0, pc := 0x0102 }, [], 8⟩,
    ⟨[0xCB, 0xFE], base, [(0xC000, 0x01)], { base with f := 0x00, pc := 0x0102 }, [(0xC000, 0x81)], 16⟩] : List Row).all Row.holds = true := by decide +kernel

/-- Vectors of jumps, calls and returns (95_test_vectors 2.6). -/
theorem test_vectors_control_flow_1 : ([
    ⟨[0xC3, 0x50, 0x01], base, [], { base with f := 0x00, pc := 0x0150 }, [], 16⟩,
    ⟨[0xCA, 0x00, 0x02], base, [], { base with f := 0x00, pc := 0x0103 }, [], 12⟩,
    ⟨[0xCA, 0x00, 0x02], { base with f := 0x80 }, [], { { base with f := 0x80 } with f := 0x80, pc := 0x0200 }, [], 16⟩,
    ⟨[0xE9], { base with h := 0xC1, l := 0x23 }, [], { { base with h := 0xC1, l := 0x23 } with f := 0x00, pc := 0xC123 }, [], 4⟩,
    ⟨[0x18, 0x05], base, [], { base with f := 0x00, pc := 0x0107 }, [], 12⟩,
    ⟨[0x18, 0xFB], base, [], { base with f := 0x00, pc := 0x00FD }, [], 12⟩,
    ⟨[0x38, 0x10], base, [], { base with f := 0x00, pc := 0x0102 }, [], 8⟩,
    ⟨[0x30, 0xFE], base, [], { base with f := 0x00, pc := 0x0100 }, [], 12⟩,
    ⟨[0xCD, 0x34, 0x12], base, [], { base with f := 0x00, sp := 0xCFFE, pc := 0x1234 }, [(0xCFFE, 0x03), (0xCFFF, 0x01)], 24⟩,
    ⟨[0xDC, 0x00, 0x30], base, [], { base with f := 0x00, pc := 0x0103 }, [], 12⟩,
    ⟨[0xC9], { base with sp := 0xCFFE }, [(0xCFFE, 0x03), (0xCFFF, 0x02)], { { base with sp := 0xCFFE } with f := 0x00, sp := 0xD000, pc := 0x0203 }, [], 16⟩,
    ⟨[0xC0], { base with sp := 0xCFFE }, [(0xCFFE, 0x03), (0xCFFF, 0x02)], { { base with sp := 0xCFFE } with f := 0x00, sp := 0xD000, pc := 0x0203 }, [], 20⟩,
    ⟨[0xC8], { base with sp := 0xCFFE, f := 0x00 }, [(0xCFFE, 0x03), (0xCFFF, 0x02)], { { base with sp := 0xCFFE, f := 0x00 } with f := 0x00, pc := 0x0101 }, [], 8⟩] : List Row).all Row.holds = true := by decide +kernel

/-- Vectors of jumps, calls and returns (95_test_vectors 2.6). -/
theorem test_vectors_control_flow_2 : ([
    ⟨[0xEF], base, [], { base with f := 0x00, sp := 0xCFFE, pc := 0x0028 }, [(0xCFFE, 0x01), (0xCFFF, 0x01)], 16⟩,
    ⟨[0xFF], base, [], { base with f := 0x00, sp := 0xCFFE, pc := 0x0038 }, [(0xCFFE, 0x01), (0xCFFF, 0x01)], 16⟩] : List Row).all Row.holds = true := by decide +kernel

/-- Vectors of the system instructions (95_test_vectors 2.7). -/
theorem test_vectors_system : ([
    ⟨[0x00], base, [], { base with f := 0x00, pc := 0x0101 }, [], 4⟩,
    ⟨[0xDD, 0x55], base, [], { base with f := 0x00, pc := 0x0101 }, [], 4⟩] : List Row).all Row.holds = true := by decide +kernel

/-- `STOP` with DIV = 7C (95_test_vectors 2.7). -/
theorem test_stop : (after (place [0x10, 0x00] (rawWrite base 0xFF04 0x7C))).pc = 0x0102 ∧
    (after (place [0x10, 0x00] (rawWrite base 0xFF04 0x7C))).halted = true ∧
    raw (after (place [0x10, 0x00] (rawWrite base 0xFF04 0x7C))) 0xFF04 = 0x00 ∧
    (after (place [0x10, 0x00] (rawWrite base 0xFF04 0x7C))).divAcc = 4 := by decide +kernel

/-- `RETI` (95_test_vectors 2.6). -/
theorem test_reti : let t := after (place [0xD9] (rawWrite (rawWrite { base with sp := 0xCFFE } 0xCFFE 0x50) 0xCFFF 0x01))
    t.pc = 0x0150 ∧ t.sp = 0xD000 ∧ t.ime = true ∧ t.cycles = 16 := by decide +kernel

/-- `DI` and `EI` with `EI_DELAY = 0` (95_test_vectors 2.7). -/
theorem test_di_ei : (after (place [0xF3] { base with ime := true })).ime = false ∧
    (after (place [0xFB] base)).ime = true := by decide +kernel

/-- `EI` with `EI_DELAY = 1`, the first two steps (V-INT-4). -/
theorem test_ei_delayed : let s := after (place [0xFB, 0x04] { base with cfg := delayed })
    s.imeDelay = 1 ∧ s.ime = false ∧ (after s).imeDelay = 0 ∧ (after s).ime = true := by decide +kernel

/-! ## The machine around an instruction -/

/-- V-INT-1, the first step: bit 0 is served, then the `EI` at 0x0040 runs. -/
theorem test_interrupt_entry : let t := after (place [0x76] (rawWrite (rawWrite (rawWrite
      { base with ime := true } 0x0040 0xFB) 0xFFFF 0x1F) 0xFF0F 0xFF))
    t.pc = 0x0041 ∧ raw t 0xFF0F = 0xFE ∧ t.ime = true ∧ t.sp = 0xCFFE ∧ raw t 0xCFFF = 0x01 ∧ raw t 0xCFFE = 0x00 ∧
    t.cycles = 24 := by decide +kernel

/-- V-HALT-1 and V-HALT-4: `HALT` without an enabled request. -/
theorem test_halt : let t := after (place [0x76] (rawWrite base 0xFF0F 0x1F))
    t.halted = true ∧ t.haltBug = false ∧ t.pc = 0x0101 ∧ t.cycles = 4 := by decide +kernel

/-- V-HALT-3, the second step: the halt bug reads 3E as opcode and operand. -/
theorem test_halt_bug : let t := after { place [0x3E, 0x14] base with haltBug := true }
    t.a = 0x3E ∧ t.pc = 0x0101 ∧ t.haltBug = false ∧ t.cycles = 8 := by
  refine ⟨?_, ?_, ?_, ?_⟩ <;> decide +kernel

/-- Scenario 1, step 8: TIMA wraps to TMA and requests interrupt 2. -/
theorem test_timer_overflow : let t := after (place [0x00] (rawWrite (rawWrite (rawWrite
      { base with timaAcc := 12 } 0xFF06 0xAB) 0xFF05 0xFF) 0xFF07 0x05))
    raw t 0xFF05 = 0xAB ∧ raw t 0xFF0F = 0x04 ∧ t.timaAcc = 0 := by decide +kernel

/-- Scenario 3, step 3: `LDH (46),A` copies and locks, and takes its own 12 T-cycles. -/
theorem test_dma : let t := after (place [0xE0, 0x46] (rawWrite { base with a := 0xC0 } 0xC09F 0x5D))
    raw t 0xFE9F = 0x5D ∧ t.dmaRunning = true ∧ t.dmaCounter = 12 ∧ busRead t 0xC09F = 0xFF := by decide +kernel

/-- Section 3.7, step 4: the serial byte goes out at the end of the step and SC is cleared. -/
theorem test_serial : let t := after (place [0xE0, 0x02] (rawWrite { base with a := 0x81 } 0xFF01 0x4F))
    t.serialOut = [0x4F] ∧ raw t 0xFF02 = 0x00 := by decide +kernel

/-- Section 3.4: OAM_SCAN ends at 84 with 12-cycle steps. -/
theorem test_ppu_mode : let t := after (place [0x18, 0xFE] { base with ppuCounter := 72 })
    t.ppuMode = .drawing ∧ t.ppuCounter = 4 ∧ raw t 0xFF41 = 0x07 := by decide +kernel

/-- Section 3.4: line 144 begins with the VBLANK request. -/
theorem test_vblank : let t := after (place [0x18, 0xFE] (rawWrite (rawWrite
      { base with ppuMode := .hblank, ppuCounter := 192, ly := 143 } 0xFF44 143) 0xFF41 0x00))
    t.ppuMode = .vblank ∧ t.ly = 144 ∧ raw t 0xFF44 = 144 ∧ raw t 0xFF0F = 0x01 ∧ raw t 0xFF41 = 0x01 := by decide +kernel

/-- Scenario 6: an 8x8 sprite with and without priority over colour 1, at column 8. -/
theorem test_sprite_priority :
    spriteShade scenario6 8 1 ⟨16, 16, 2, 0x80, 0⟩ = none ∧
    spriteShade scenario6 8 1 ⟨16, 16, 2, 0x00, 0⟩ = some 0 ∧
    spriteShade scenario6 8 1 ⟨16, 16, 2, 0x20, 0⟩ = none := by decide +kernel

/-- Section 3.6: JOYP with A, Down and Left pressed. -/
theorem test_joypad : ([(0x00, 0x04), (0x10, 0x1E), (0x20, 0x25), (0x30, 0x3F), (0xFF, 0xFF), (0xCF, 0xC4)] :
    List (Byte × Byte)).all (fun x => busRead (rawWrite { base with buttons :=
      { Buttons.released with a := true, down := true, left := true } } 0xFF00 x.1) 0xFF00 == x.2) = true := by
  decide +kernel

/-- V-PPU-GATE at reset, mode 2: VRAM is open and OAM closed. -/
theorem test_gates : let s := rawWrite (rawWrite (rawWrite State.reset 0xFF40 0x80) 0x8000 0x12) 0xFE00 0x34
    busRead s 0x8000 = 0x12 ∧ busRead s 0xFE00 = 0xFF := by decide +kernel

/-- A table word placed where the next step fetches it runs as the first instruction after reset (log 19). -/
theorem test_withFetchWord : (after (State.reset.withFetchWord 16 0xCB37)).a = 0x10 ∧
    (after (State.reset.withFetchWord 8 0x04)).b = 0x01 := by decide +kernel

/-! ## Hypotheses that are met, obligation by obligation -/

theorem test_hyp_roundTrip : (Instr.illegal 0xFD).wf = true ∧ (Instr.pushRr .hl).wf = true ∧
    ∀ op2 : Byte, Instr.nop ≠ .prefixCb op2 := ⟨by decide, by decide, fun _ h => by cases h⟩

theorem test_hyp_decodedBytes : decode [0xCB, 0x7C, 0x00] = .ok (.bitBR 7 .h, [0x00]) := rfl

theorem test_hyp_everyInstruction : (Instr.retCc .nz).wf = true ∧ (Instr.prefixCb 0x37).wf = true := by decide

/-- A state about to run `LD A,2A`. -/
def ready : State := place [0x3E, 0x2A] base

theorem test_hyp_stepRuns : ready.running = true ∧ (hostBoundary ready).running = true ∧
    (serviceInterrupts (beginStep (hostBoundary ready))).halted = false ∧
    (serviceInterrupts (beginStep (hostBoundary ready))).haltBug = false ∧ Decodes [0x3E, 0x2A] (.ldRN8 .a 0x2A) ∧
    ∀ (k : Nat) (v : Byte), ([0x3E, 0x2A] : List Byte)[k]? = some v →
      busRead (serviceInterrupts (beginStep (hostBoundary ready)))
        ((serviceInterrupts (beginStep (hostBoundary ready))).pc + BitVec.ofNat 16 k) = v := by
  refine ⟨rfl, rfl, by decide +kernel, by decide +kernel, fun _ => rfl, fun k v h => ?_⟩
  match k, h with
  | 0, h => cases h; decide +kernel
  | 1, h => cases h; decide +kernel
  | k + 2, h => simp at h

/-- The first clause with the halt bug set. -/
theorem test_hyp_stepRunsHaltBug : (hostBoundary { ready with haltBug := true }).running = true ∧
    (serviceInterrupts (beginStep (hostBoundary { ready with haltBug := true }))).halted = false ∧
    (serviceInterrupts (beginStep (hostBoundary { ready with haltBug := true }))).haltBug = true := by decide +kernel

theorem test_hyp_powerOn : ([0x0000, 0xC000, 0xDDFF, 0xDE00, 0xDFFF, 0xFE00, 0xFFFF] : List Word).all
    (fun k => phys k == k.toNat && k != 0xFF44 && k != 0xFF41) = true := by decide +kernel

theorem test_hyp_keepsInvariant : State.reset.Inv ∧ ∃ t, step State.reset = .next t :=
  ⟨by constructor <;> decide, _, rfl⟩

theorem test_hyp_runningMachine : base.running = true ∧ (∀ i ∈ base.hostInputs, i.stop = false) ∧
    ({ base with running := false } : State).running = false := ⟨rfl, by simp [base, State.reset], rfl⟩

/-- A halted state, and a state about to enter interrupt 4. -/
def asleep : State := { base with halted := true }
/-- Interrupt 4 is requested and enabled. -/
def entering : State := rawWrite (rawWrite { base with ime := true } 0xFFFF 0x10) 0xFF0F 0x10
/-- All five are requested and enabled. -/
def enteringFirst : State := rawWrite (rawWrite { base with ime := true } 0xFFFF 0x1F) 0xFF0F 0x1F

theorem test_hyp_conserves : base.running = true ∧ (hostBoundary base).running = true ∧ (∃ t, step base = .next t) ∧
    (∃ t, step entering = .next t) ∧ (serviceInterrupts (beginStep (hostBoundary entering))).cycles = 20 ∧
    (∃ t, step asleep = .next t) ∧ (serviceInterrupts (beginStep (hostBoundary asleep))).halted = true :=
  ⟨rfl, rfl, ⟨_, rfl⟩, ⟨_, rfl⟩, by decide +kernel, ⟨_, rfl⟩, by decide +kernel⟩

theorem test_hyp_haltedStep : asleep.running = true ∧ (hostBoundary asleep).running = true ∧
    (serviceInterrupts (beginStep (hostBoundary asleep))).halted = true := by decide +kernel

/-- A press of A at the frame's end. -/
def pressA : HostInput := { buttons := { Buttons.released with a := true }, stop := false }

theorem test_hyp_hostActs : atFrameBoundary { base with frameCycles := 70223 } = false ∧
    (∃ t, step { base with frameCycles := 70223 } = .next t) ∧
    atFrameBoundary { base with frameCycles := 70224, hostInputs := [pressA] } = true ∧
    newlyPressed base.buttons pressA.buttons = true ∧ atFrameBoundary base = true ∧ base.hostInputs = [] :=
  ⟨by decide, ⟨_, rfl⟩, by decide, by decide, by decide, rfl⟩

/-- Power-on with a boot ROM of `NOP`s. -/
def booting : State := { base with cfg := { Config.standard with bootRom := some (Vector.replicate 256 0) }
                                   bootRomEnabled := true, pc := 0x0000 }

theorem test_hyp_bootShadow : (∃ t, step booting = .next t) ∧ (after booting).bootRomEnabled = true :=
  ⟨⟨_, rfl⟩, by decide +kernel⟩

theorem test_hyp_registerLoads : Reg8.a ≠ .b ∧ plainStore 0xC000 = true ∧ plainStore 0xFFFF = true ∧
    plainStore 0xA000 = true ∧ plainStore 0xFEA0 = true ∧ plainStore 0x8000 = false ∧ storeReaches 0xC000 0xC001 = false ∧
    storeReaches 0xFF46 0xFE9F = true ∧ storeReaches 0xFF46 0xFEA0 = false := by decide +kernel

theorem test_hyp_pairs : R16.bc ≠ .sp ∧ R16S.bc ≠ .af ∧ plainStore 0xFFFE = true ∧ plainStore (0xFFFE + 1) = true ∧
    plainStore ((0xC002 : Word) - 1) = true ∧ plainStore ((0xC002 : Word) - 2) = true ∧
    storeReaches ((0xC002 : Word) - 1) 0xC002 = false ∧ storeReaches ((0xC002 : Word) - 2) 0xC002 = false := by
  decide +kernel

theorem test_hyp_pushThenPop : base.FlagsOk ∧ base.dmaRunning = false ∧
    ([0xC002, 0xE000, 0xFF82, 0xFFFF] : List Word).all (fun sp => ramByte (sp - 1) && ramByte (sp - 2)) = true := by
  decide +kernel

theorem test_hyp_addAndSub : ∃ cin : Nat, cin = (if true && cFlag { base with f := 0x10 } then 1 else 0) ∧ cin = 1 :=
  ⟨1, by decide, rfl⟩

theorem test_hyp_decimalSums : (99 : Nat) < 100 ∧ ({ base with a := 0x99, b := 0x45 } : State).a = BitVec.ofNat 8 (99 / 10 * 16 + 99 % 10) ∧
    reg8 { base with a := 0x99, b := 0x45 } .b = BitVec.ofNat 8 (45 / 10 * 16 + 45 % 10) := by decide +kernel

/-- The condition `Z` does not hold and `NZ` does. -/
theorem test_hyp_calls : zFlag base = false ∧ cond base .z = false ∧ cond base .nz = true := by decide +kernel

theorem test_hyp_haltCases : ({ base with ime := true } : State).ime = true ∧ base.ime = false ∧
    (raw enteringFirst 0xFFFF).getLsbD 0 = true ∧ (raw enteringFirst 0xFF0F).getLsbD 0 = true ∧
    (∀ i, i < 5 → (raw base 0xFFFF).getLsbD i = true → (raw base 0xFF0F).getLsbD i = false) := by decide +kernel

theorem test_hyp_masterEnable : base.cfg.eiDelay = false ∧ delayed.eiDelay = true ∧
    (∃ n, ({ base with cfg := delayed, imeDelay := 2 } : State).imeDelay = n + 1) ∧ base.imeDelay = 0 :=
  ⟨rfl, rfl, ⟨1, rfl⟩, rfl⟩

theorem test_hyp_illegal : (0xD3 : Byte) ∈ illegalOpcodes ∧ (0xFD : Byte) ∈ illegalOpcodes := by decide

theorem test_hyp_busReads : base.BootOk ∧ booting.BootOk := by
  constructor
  · intro h; cases h
  · intro _; rfl

/-- LCD on: VRAM is closed in DRAWING, OAM in OAM_SCAN, up to the ends of their ranges. -/
theorem test_hyp_busWrites : ([0x8000, 0x9FFF] : List Word).all
      (fun a => gated (rawWrite { base with ppuMode := .drawing } 0xFF40 0x80) a) = true ∧
    ([0xFE00, 0xFE9F] : List Word).all (fun a => gated (rawWrite base 0xFF40 0x80) a) = true ∧
    ([0x7FFF, 0xFEA0, 0xFF50, 0xFF44, 0xFFFF] : List Word).all (fun a => !gated (rawWrite base 0xFF40 0x80) a) = true ∧
    phys 0xC001 ≠ phys 0xC000 := by decide +kernel

theorem test_hyp_dmaStore : (0xC000 : Word).toNat < 0xFE00 ∧ (0xFE9F : Nat) < (0xFEA0 : Word).toNat ∧
    (0xFF7F : Word).toNat < 0xFF80 ∧ (0xFFFE : Nat) < (0xFFFF : Word).toNat := by decide

theorem test_hyp_joypad : base.dmaRunning = false ∧ (4 : Nat) ≤ 7 ∧ (7 : Nat) < 8 := by decide

theorem test_hyp_interruptEntry : entering.ime = true ∧ pending entering ≠ 0 ∧ lowestBit (pending entering) = 4 ∧
    pending enteringFirst ≠ 0 ∧ lowestBit (pending enteringFirst) = 0 ∧ ramByte (entering.sp - 1) = true ∧
    ramByte (entering.sp - 2) = true := by decide +kernel

theorem test_hyp_service : pending base = 0 ∧ pending { entering with ime := false } ≠ 0 := by decide +kernel

theorem test_hyp_haltBug : ({ ready with haltBug := true } : State).haltBug = true ∧ ready.haltBug = false ∧
    instrLength (busRead ready ready.pc) = 2 ∧ instrLength (busRead base base.pc) = 1 ∧
    instrLength (busRead (place [0xC3] base) 0x0100) = 3 := by decide +kernel

/-- TIMA's values as the statement on the timer asks for them. -/
theorem test_hyp_timer (first tma : Byte) : ∃ tima : Nat → Byte, tima 0 = first ∧
    ∀ k, tima (k + 1) = if tima k = 0xFF then tma else tima k + 1 :=
  ⟨fun k => Nat.rec first (fun _ v => if v = 0xFF then tma else v + 1) k, rfl, fun _ => rfl⟩

/-- With TAC = 05 and 16 T-cycles there is one increment, from 0xFF or not. -/
theorem test_hyp_timerWraps : (rawWrite base 0xFF07 0x05).timaAcc + 16 = 16 ∧
    (raw (rawWrite base 0xFF07 0x05) 0xFF07).getLsbD 2 = true ∧ raw (rawWrite base 0xFF05 0xFF) 0xFF05 = 0xFF ∧
    raw base 0xFF05 ≠ 0xFF := by decide +kernel

theorem test_hyp_dmaLockout : ({ base with dmaRunning := true, dmaCounter := 635 } : State).dmaCounter + 4 = 639 ∧
    ({ base with dmaRunning := true, dmaCounter := 636 } : State).dmaCounter + 4 = 640 ∧ base.dmaRunning = false := by
  decide

theorem test_hyp_serialTap : (raw (rawWrite base 0xFF01 0x7F) 0xFF01).toNat < 0x80 ∧
    raw (rawWrite base 0xFF02 0x81) 0xFF02 = 0x81 ∧ 0x80 ≤ (raw (rawWrite base 0xFF01 0x80) 0xFF01).toNat ∧
    raw base 0xFF02 ≠ 0x81 := by decide +kernel

/-- The last line before VBLANK, at the end of HBLANK. -/
def line143 : State :=
  rawWrite (rawWrite { base with ppuMode := .hblank, ppuCounter := 203, ly := 143 } 0xFF44 143) 0xFF41 0x00
/-- The last line of VBLANK, at its end. -/
def line153 : State :=
  rawWrite (rawWrite { base with ppuMode := .vblank, ppuCounter := 455, ly := 153 } 0xFF44 153) 0xFF41 0x01

theorem test_hyp_ppu_below : base.Inv ∧ base.ppuCounter + 44 < base.ppuMode.duration := by
  refine ⟨?_, by decide⟩
  constructor <;> decide

theorem test_hyp_ppu_hblank : line143.Inv ∧ line143.ppuMode.duration = line143.ppuCounter + 1 := by
  refine ⟨?_, by decide +kernel⟩
  constructor <;> decide +kernel

theorem test_hyp_ppu_vblank : line153.Inv ∧ line153.ppuMode.duration = line153.ppuCounter + 1 := by
  refine ⟨?_, by decide +kernel⟩
  constructor <;> decide +kernel

/-- The last cycle of OAM_SCAN. -/
def scanEnds : State := { base with ppuCounter := 79 }
/-- The last cycle of DRAWING: STAT has mode 3 and coincidence. -/
def drawEnds : State := { rawWrite base 0xFF41 0x07 with ppuMode := .drawing, ppuCounter := 171 }

theorem test_hyp_ppu_scan_and_draw : (scanEnds.Inv ∧ scanEnds.ppuMode.duration = scanEnds.ppuCounter + 1) ∧
    drawEnds.Inv ∧ drawEnds.ppuMode.duration = drawEnds.ppuCounter + 1 := by
  refine ⟨⟨?_, by decide +kernel⟩, ?_, by decide +kernel⟩ <;> constructor <;> decide +kernel

theorem test_hyp_scanline : (159 : Nat) < 160 ∧ (0 : Nat) < 160 := by decide

/-- V-PIX-3: an 8x16 sprite, column 0 of lines 0 to 15, in colour numbers (0 shows nothing). -/
def tallSprite (attrs : Byte) (swaps : Bool) : List Nat :=
  let s := { poke [(0xFF40, 0x97), (0xFF48, 0xE4), (0x8020, 0x80), (0x802E, 0x80), (0x802F, 0x80), (0x8031, 0x80)] base with
             cfg := { Config.standard with sprite16YFlipSwapsTiles := swaps } }
  (List.range 16).map fun line =>
    ((spriteShade { s with ly := line } 0 0 ⟨0x10, 0x08, 0x03, attrs, 0⟩).map (·.toNat)).getD 0

theorem test_tallSprite : tallSprite 0x00 false = [1, 0, 0, 0, 0, 0, 0, 3, 2, 0, 0, 0, 0, 0, 0, 0] ∧
    tallSprite 0x40 false = [3, 0, 0, 0, 0, 0, 0, 1, 0, 0, 0, 0, 0, 0, 0, 2] ∧
    tallSprite 0x40 true = [0, 0, 0, 0, 0, 0, 0, 2, 3, 0, 0, 0, 0, 0, 0, 1] := by decide +kernel

end Sys2Proof.Tests
end

section
/-! The invariant of the machine (10_state R36): it holds after power-on and at reset, every step keeps it, and no step
turns the boot ROM shadow on or changes a parameter. -/

namespace Sys2Proof.Machine

/-! ## What a step can do (R300, R301, R302) -/

/-- A step that answers a next state: the host stopped the machine, a halted tick, or one instruction. -/
theorem step_cases {s t : State} (h : step s = .next t) :
    t = beginStep (hostBoundary s) ∨
    t = advanceDevices { serviceInterrupts (beginStep (hostBoundary s)) with
      cycles := (serviceInterrupts (beginStep (hostBoundary s))).cycles + 4 } ∨
    ∃ i w, exec i (fetchInstr (serviceInterrupts (beginStep (hostBoundary s)))).2 = .next w ∧
      t = advanceDevices (promoteIme w) := by
  by_cases h1 : s.running = true
  · by_cases h2 : (hostBoundary s).running = true
    · rw [step_eq_of_running h1 h2] at h
      split at h
      · injection h with h
        exact .inr (.inl h.symm)
      · cases hw : exec (fetchInstr (serviceInterrupts (beginStep (hostBoundary s)))).1
            (fetchInstr (serviceInterrupts (beginStep (hostBoundary s)))).2 with
        | next w =>
          rw [hw] at h
          injection h with h
          exact .inr (.inr ⟨_, w, hw, h.symm⟩)
        | fault r => rw [hw] at h; cases h
        | refused r => rw [hw] at h; cases h
    · unfold step at h
      rw [if_pos h1, if_neg h2] at h
      injection h with h
      exact .inl h.symm
  · unfold step at h
    rw [if_neg h1] at h
    cases h

/-! ## The boot shadow and the parameters (R22, R55; log 1) -/

/-- From `s` to `t` the boot ROM shadow is not turned on and the parameters stay (R36 item 7). -/
def ShadowKept (s t : State) : Prop := (t.bootRomEnabled = true → s.bootRomEnabled = true) ∧ t.cfg = s.cfg

theorem ShadowKept.of_eq {s t : State} (hb : t.bootRomEnabled = s.bootRomEnabled) (hc : t.cfg = s.cfg) :
    ShadowKept s t := ⟨fun h => hb ▸ h, hc⟩

theorem ShadowKept.trans {s t u : State} (h : ShadowKept s t) (g : ShadowKept t u) : ShadowKept s u :=
  ⟨fun hu => h.1 (g.1 hu), g.2.trans h.2⟩

theorem shadowKept_busWrite (s : State) (a : Word) (v : Byte) : ShadowKept s (busWrite s a v) := by
  refine ⟨fun h => ?_, busWrite_cfg s a v⟩
  by_contra hs
  rw [busWrite_boot s a v (Bool.eq_false_iff.mpr hs)] at h
  cases h

theorem shadowKept_stores (ws : List (Word × Byte)) (s : State) : ShadowKept s (stores ws s) := by
  induction ws generalizing s with
  | nil => exact .of_eq rfl rfl
  | cons w ws ih => exact (shadowKept_busWrite s w.1 w.2).trans (ih _)

theorem shadowKept_push16 (s : State) (v : Word) : ShadowKept s (push16 s v) :=
  ((shadowKept_busWrite s _ _).trans (shadowKept_busWrite _ _ _)).trans (.of_eq rfl rfl)

theorem shadowKept_hostBoundary (s : State) : ShadowKept s (hostBoundary s) := by
  refine .of_eq ?_ (hostBoundary_imeDelay s).1
  unfold hostBoundary
  split
  · split
    · rfl
    · rename_i i is _
      obtain ⟨m, e⟩ := applyHostInput_eq s i
      rw [e]
  · rfl

theorem shadowKept_serviceInterrupts (s : State) : ShadowKept s (serviceInterrupts s) := by
  rcases serviceInterrupts_cases s with ⟨-, e⟩ | ⟨-, -, e⟩ | ⟨-, -, e⟩ <;> rw [e]
  · exact .of_eq rfl rfl
  · exact .of_eq rfl rfl
  · exact (shadowKept_push16
      { s with halted := false, ime := false, imeDelay := if s.cfg.eiDelay then 0 else s.imeDelay } s.pc).trans
        (.of_eq rfl rfl)

theorem shadowKept_exec {i : Instr} {s t : State} (h : exec i s = .next t) : ShadowKept s t := by
  obtain ⟨ws, -, hw⟩ := (exec_effect i h).devices
  exact (shadowKept_stores ws s).trans (.of_eq hw.bootRomEnabled hw.cfg)

theorem shadowKept_fetchInstr (s : State) : ShadowKept s (fetchInstr s).2 := by
  obtain ⟨p, b, e⟩ := fetchInstr_eq s
  rw [e]
  exact .of_eq rfl rfl

theorem shadowKept_promoteIme (s : State) : ShadowKept s (promoteIme s) := by
  obtain ⟨b, n, e⟩ := promoteIme_eq s
  rw [e]
  exact .of_eq rfl rfl

theorem shadowKept_advanceDevices (s : State) : ShadowKept s (advanceDevices s) := by
  obtain ⟨m, p, n, l, sp, px, da, ta, r, k, so, e⟩ := advanceDevices_eq s
  rw [e]
  exact .of_eq rfl rfl

/-- No part of a step turns the shadow on or changes a parameter (R36 item 7). -/
theorem step_shadowKept {s t : State} (h : step s = .next t) : ShadowKept s t := by
  have hb : ShadowKept s (beginStep (hostBoundary s)) := (shadowKept_hostBoundary s).trans (.of_eq rfl rfl)
  have hv := hb.trans (shadowKept_serviceInterrupts _)
  rcases step_cases h with rfl | rfl | ⟨i, w, hw, rfl⟩
  · exact hb
  · exact (hv.trans (.of_eq rfl rfl)).trans (shadowKept_advanceDevices _)
  · exact (((hv.trans (shadowKept_fetchInstr _)).trans (shadowKept_exec hw)).trans (shadowKept_promoteIme w)).trans
      (shadowKept_advanceDevices _)

/-- Settles O15: the parts of a step each keep the shadow off and the parameters as they are. -/
theorem bootShadowOnlyTurnsOff : Obligations.BootShadowOnlyTurnsOff :=
  fun _ _ h => step_shadowKept h

/-! ## Every step keeps the invariant (R36, R300) -/

theorem PartsOk.beginStep {s : State} (h : PartsOk s) : PartsOk (Machine.beginStep s) := h.host _ _ _ _ _ _ _

/-- The two clauses the parts of a step do not carry, added at its end. -/
theorem PartsOk.inv {s : State} (h : PartsOk s) (hi : s.ImeDelayOk) (hf : s.frameCycles < cyclesPerFrame + 44) :
    s.Inv :=
  { mem := h.mem, flags := h.flags, ly := h.ly, mode := h.mode, coincidence := h.coincidence, sprites := h.sprites
    boot := h.boot, ppuCounter := h.ppuCounter, vblank := h.vblank, timer := h.timer, dma := h.dma, imeDelay := hi
    frame := hf }

/-- The end of a step: the devices carry the invariant over, with the frame count below its bound while the step took
44 T-cycles or fewer (R304). -/
theorem PartsOk.inv_advanceDevices {s : State} (h : PartsOk s) (hi : s.ImeDelayOk) (hc : s.cycles ≤ 44)
    (hf : s.frameCycles < cyclesPerFrame) : (Machine.advanceDevices s).Inv := by
  have hp := h.advanceDevices
  obtain ⟨m, p, n, l, sp, px, da, ta, r, k, so, e⟩ := advanceDevices_eq s
  rw [e] at hp ⊢
  exact hp.inv hi (Nat.add_lt_add_of_lt_of_le hf hc)

/-- Clearing `ime_delay`, or leaving it alone, keeps its bound. -/
theorem State.ImeDelayOk.of_kept_or_cleared {s t : State} (h : s.ImeDelayOk)
    (hi : t.imeDelay = s.imeDelay ∨ t.imeDelay = 0) (hc : t.cfg = s.cfg) : t.ImeDelayOk := by
  rw [State.ImeDelayOk, hc]
  rcases hi with e | e <;> rw [e]
  · exact h
  · exact ⟨Nat.zero_le 1, fun _ => rfl⟩

/-- An instruction with the countdown after it: `EI` sets `ime_delay` to 2 only with `EI_DELAY = 1`, and then the
countdown takes it to 1 (R254). -/
theorem State.ImeDelayOk.promoteIme_exec {i : Instr} {s t : State} (h : s.ImeDelayOk) (he : exec i s = .next t) :
    (promoteIme t).ImeDelayOk := by
  have hcfg : t.cfg = s.cfg := (shadowKept_exec he).2
  have hpc : (promoteIme t).cfg = t.cfg := (shadowKept_promoteIme t).2
  obtain ⟨hle, hoff⟩ := h
  rw [State.ImeDelayOk, promoteIme_imeDelay, hpc, hcfg]
  rcases (exec_effect i he).imeDelay with e | e | ⟨e, hon⟩
  · rw [e]
    split
    · exact ⟨by omega, fun h0 => by rw [hoff h0]⟩
    · exact ⟨hle, hoff⟩
  · rw [e, Nat.zero_sub, ite_self]
    exact ⟨Nat.zero_le 1, fun _ => rfl⟩
  · rw [e, hon]
    exact ⟨Nat.le_refl 1, fun h0 => nomatch h0⟩

/-- What holds in a step once the interrupt service has run: at most its 20 T-cycles have passed. -/
structure ServedOk (s : State) : Prop extends PartsOk s where
  imeDelay : s.ImeDelayOk
  cycles : s.cycles ≤ 20
  frame : s.frameCycles < cyclesPerFrame

/-- The host's turn and the interrupt service, from a state that meets the invariant. -/
theorem State.Inv.servedOk {s : State} (h : s.Inv) : ServedOk (serviceInterrupts (beginStep (hostBoundary s))) := by
  obtain ⟨hcfg, hdelay⟩ := hostBoundary_imeDelay s
  obtain ⟨hc, hi, hg, hf, -⟩ := serviceInterrupts_counts (beginStep (hostBoundary s))
  have hb : (beginStep (hostBoundary s)).ImeDelayOk := h.imeDelay.of_kept_or_cleared (.inl hdelay) hcfg
  refine { toPartsOk := h.partsOk.hostBoundary.beginStep.serviceInterrupts
           imeDelay := hb.of_kept_or_cleared hi hg, cycles := ?_, frame := ?_ }
  · have h0 : (beginStep (hostBoundary s)).cycles = 0 := rfl
    omega
  · rw [hf]
    exact hostBoundary_frameCycles s

theorem ServedOk.inv_haltedTick {s : State} (h : ServedOk s) :
    (advanceDevices { s with cycles := s.cycles + 4 }).Inv :=
  PartsOk.inv_advanceDevices (h.host _ _ _ _ _ _ _) h.imeDelay (by have := h.cycles; dsimp only; omega) h.frame

theorem stores_frameCycles (ws : List (Word × Byte)) (s : State) : (stores ws s).frameCycles = s.frameCycles := by
  induction ws generalizing s with
  | nil => rfl
  | cons w ws ih => rw [stores_cons, ih, busWrite_frameCycles]

theorem exec_frameCycles {i : Instr} {s t : State} (h : exec i s = .next t) : t.frameCycles = s.frameCycles := by
  obtain ⟨ws, -, hw⟩ := (exec_effect i h).devices
  rw [hw.frameCycles, stores_frameCycles]

theorem ServedOk.fetchInstr {s : State} (h : ServedOk s) : ServedOk (Machine.fetchInstr s).2 := by
  obtain ⟨p, b, e⟩ := fetchInstr_eq s
  rw [e]
  exact { toPartsOk := h.congr (sameDevices_registers s _ _ _ _ _ _ _ _ _ _ _ _ _ _ _) h.flags
          imeDelay := h.imeDelay, cycles := h.cycles, frame := h.frame }

theorem ServedOk.inv_exec {i : Instr} {s t : State} (h : ServedOk s) (he : exec i s = .next t) :
    (advanceDevices (promoteIme t)).Inv := by
  have hp : PartsOk (Machine.promoteIme t) := (h.toPartsOk.exec he).promoteIme
  have hi : (Machine.promoteIme t).ImeDelayOk := h.imeDelay.promoteIme_exec he
  have hc : t.cycles ≤ 44 := Nat.le_trans (exec_effect i he).cycles.2 (Nat.add_le_add_right h.cycles 24)
  have hf : t.frameCycles < cyclesPerFrame := exec_frameCycles he ▸ h.frame
  obtain ⟨b, n, e⟩ := promoteIme_eq t
  rw [e] at hp hi ⊢
  exact hp.inv_advanceDevices hi hc hf

/-- The invariant over one pass of the tick loop, in each of the three ways it can end (R36, R300, R301). -/
theorem State.Inv.step {s t : State} (h : s.Inv) (hs : Machine.step s = .next t) : t.Inv := by
  obtain ⟨hcfg, hdelay⟩ := hostBoundary_imeDelay s
  rcases step_cases hs with rfl | rfl | ⟨i, w, hw, rfl⟩
  · exact h.partsOk.hostBoundary.beginStep.inv (h.imeDelay.of_kept_or_cleared (.inl hdelay) hcfg)
      (Nat.lt_add_right 44 (hostBoundary_frameCycles s))
  · exact h.servedOk.inv_haltedTick
  · exact h.servedOk.fetchInstr.inv_exec hw

/-- Settles O10: the parts of a step carry the invariant, and `ime_delay` and the frame count are back in their bounds
at its end. -/
theorem stepKeepsTheInvariant : Obligations.StepKeepsTheInvariant :=
  fun _ _ h hs => h.step hs

/-! ## The invariant after power-on and at reset (R37, R400, R401) -/

theorem loadFrom_wf (cart : List Byte) (i : Nat) {m : Memory} (h : m.wf) : (loadFrom cart i m).wf := by
  induction cart generalizing i m with
  | nil => exact h
  | cons v vs ih =>
    unfold loadFrom
    split
    · exact ih _ (Memory.wf_write h (isStorage_phys _) v)
    · exact h

theorem loadCart_wf (cart : List Byte) : (loadCart cart).wf :=
  loadFrom_wf cart 0 (Memory.wf_write Memory.wf_nil (isStorage_phys 0xFF41) 0)

/-- STAT at power-on has the code of OAM_SCAN in bits 1..0 (R400 step 6). -/
theorem stat_reset_mode (x : Byte) (p : Prop) [Decidable p] :
    ((x &&& 0xF8) ||| 0x02 ||| (if p then 0x04 else 0)) &&& 0x03 = PpuMode.oamScan.code := by
  split <;> (revert x; decide +kernel)

/-- STAT at power-on has the outcome of the comparison in bit 2 (R400 step 6). -/
theorem stat_reset_coincidence (x : Byte) (p : Prop) [Decidable p] :
    ((x &&& 0xF8) ||| 0x02 ||| (if p then 0x04 else 0)).getLsbD 2 = decide p := by
  by_cases hp : p
  · rw [if_pos hp, decide_eq_true hp]
    revert x; decide +kernel
  · rw [if_neg hp, decide_eq_false hp]
    revert x; decide +kernel

/-- Step 6 of R400 puts LY, STAT and the mode in order, whatever storage holds. -/
theorem devicesOk_resetPpu {s : State} (hm : s.mem.wf) (hb : s.BootOk) : DevicesOk (resetPpu s) := by
  let s1 : State := { rawWrite s 0xFF44 0 with ppuMode := .oamScan, ppuCounter := 0, ly := 0, sprites := [] }
  have hstat : raw (resetPpu s) 0xFF41 =
      (raw s1 0xFF41 &&& 0xF8) ||| 0x02 ||| (if raw s1 0xFF45 = 0 then 0x04 else 0) := raw_rawWrite_self _ _ _
  have hlyc : raw (resetPpu s) 0xFF45 = raw s1 0xFF45 := raw_rawWrite_io s1 _ (by decide) (by decide)
  have hly : raw (resetPpu s) 0xFF44 = 0 :=
    (raw_rawWrite_io s1 _ (by decide) (by decide)).trans (raw_rawWrite_self s 0xFF44 0)
  refine { mem := rawWrite_wf (s := s1) (rawWrite_wf hm 0xFF44 0) _ _, ly := ⟨Nat.zero_le _, by rw [hly]; rfl⟩
           coincidence := ?_, sprites := ⟨Nat.zero_le _, List.Pairwise.nil⟩, boot := hb, mode := ?_
           vblank := ⟨fun h => (nomatch h), fun h => (nomatch h)⟩ }
  · rw [State.CoincidenceOk, hstat, hlyc, stat_reset_coincidence, Bool.eq_iff_iff, decide_eq_true_eq, beq_iff_eq]
    exact ⟨fun e => by rw [e]; rfl, fun e => BitVec.eq_of_toNat_eq e.symm⟩
  · rw [State.ModeOk, hstat]
    exact stat_reset_mode _ _

theorem powerOn_inv (cfg : Config) (cart : List Byte) (regs : ResetRegs) : (powerOn cfg cart regs).Inv :=
  have hd : DevicesOk (powerOn cfg cart regs) := devicesOk_resetPpu (loadCart_wf cart) id
  have hp : PartsOk (powerOn cfg cart regs) :=
    { toDevicesOk := hd, timer := ⟨Nat.zero_lt_succ _, Nat.zero_lt_succ _⟩
      dma := ⟨Nat.zero_le _, fun _ => Nat.zero_lt_succ _⟩, ppuCounter := Nat.zero_lt_succ _, flags := and_F0_low _ }
  hp.inv ⟨Nat.zero_le 1, fun _ => rfl⟩ (Nat.zero_lt_succ _)

/-- With no cartridge byte storage lists nothing: STAT's byte is back at its reset contents (log 3, log 4). -/
theorem reset_eq_powerOn : State.reset = powerOn Config.standard [] ResetRegs.withoutBootRom := by decide

/-- Settles O8: the reset procedure leaves storage canonical, F's low nibble 0, and LY, STAT and the mode in order. -/
theorem powerOnMeetsTheInvariant : Obligations.PowerOnMeetsTheInvariant :=
  ⟨powerOn_inv, reset_eq_powerOn⟩

/-- Settles O9: the reset state is a power-on. -/
theorem resetMeetsTheInvariant : Obligations.ResetMeetsTheInvariant := by
  unfold Obligations.ResetMeetsTheInvariant
  rw [reset_eq_powerOn]
  exact powerOn_inv _ _ _

end Sys2Proof.Machine
end

section
/-! The CPU's bus (20_memory R45 to R65): its reads, its stores, the DMA register, the joypad read and the fetch under the
halt bug. First what each shared operation does, then the statements. -/

namespace Sys2Proof.Machine

/-! ## The address regions (R41) -/

theorem inHram_eq_false_iff (a : Word) : inHram a = false ↔ a.toNat < 0xFF80 ∨ 0xFFFE < a.toNat := by
  simp only [inHram, Bool.and_eq_false_iff, decide_eq_false_iff_not, Nat.not_le]

theorem inOam_eq_false_iff (a : Word) : inOam a = false ↔ a.toNat < 0xFE00 ∨ 0xFE9F < a.toNat := by
  simp only [inOam, Bool.and_eq_false_iff, decide_eq_false_iff_not, Nat.not_le]

/-- The PPU gate: VRAM in DRAWING, OAM in OAM_SCAN and DRAWING, with the LCD on (R48, R49, R53). -/
theorem gated_iff (s : State) (a : Word) : gated s a = true ↔
    ((raw s 0xFF40).getLsbD 7 = true ∧ s.ppuMode = .drawing ∧ 0x8000 ≤ a.toNat ∧ a.toNat ≤ 0x9FFF) ∨
    ((raw s 0xFF40).getLsbD 7 = true ∧ (s.ppuMode = .oamScan ∨ s.ppuMode = .drawing) ∧ 0xFE00 ≤ a.toNat ∧
      a.toNat ≤ 0xFE9F) := by
  simp only [gated, lcdOn, inVram, inOam, Bool.and_eq_true, Bool.or_eq_true, decide_eq_true_eq, beq_iff_eq, and_or_left]

/-! ## Reads (R45 to R50) -/

/-- Where the shadow is on and covers the address, a machine with a boot ROM reads its byte there (R22, R50). -/
theorem bootByte_of_shadow {s : State} {a : Word} (hb : s.BootOk) (h : s.bootRomEnabled = true ∧ a.toNat < 0x100) :
    bootByte s a = some ((s.cfg.bootRom.map fun rom => rom.toList.getD a.toNat 0).getD 0) := by
  obtain ⟨rom, hrom⟩ := Option.isSome_iff_exists.mp (hb h.1)
  simp [bootByte, hrom, h]

theorem bootByte_of_no_shadow {s : State} {a : Word} (h : ¬(s.bootRomEnabled = true ∧ a.toNat < 0x100)) :
    bootByte s a = none := by
  rcases not_and_or.mp h with h | h
  · exact bootByte_of_disabled (Bool.eq_false_iff.mpr h) a
  · exact bootByte_of_ge (Nat.le_of_not_lt h)

/-- Settles O47: the checks of `busRead` are the seven of R45, the gate's two disjuncts being two of them. -/
theorem busReads : Obligations.BusReads := by
  intro s a hb
  have hdma : (s.dmaRunning && !inHram a) = true ↔ s.dmaRunning = true ∧ (a.toNat < 0xFF80 ∨ 0xFFFE < a.toNat) := by
    rw [Bool.and_eq_true, Bool.not_eq_true', inHram_eq_false_iff]
  have hlog : (s.cfg.testLogMode && a == 0xFF44) = true ↔ s.cfg.testLogMode = true ∧ a = 0xFF44 := by
    rw [Bool.and_eq_true, beq_iff_eq]
  simp only [busRead, hdma, hlog, gated_iff, ite_or]
  by_cases h : s.bootRomEnabled = true ∧ a.toNat < 0x100
  · rw [bootByte_of_shadow hb h, if_pos h]
  · rw [bootByte_of_no_shadow h, if_neg h]

/-! ## Stores (R52 to R58) -/

/-- A store to a gated byte or to the ROM is dropped (R53, R54). -/
theorem busWrite_dropped {s : State} {a : Word} (h : gated s a = true ∨ a.toNat ≤ 0x7FFF) (v : Byte) :
    busWrite s a v = s := by
  unfold busWrite
  rcases h with h | h
  · rw [if_pos h]
  · rw [if_pos h, ite_self]

/-- LY is read-only (R58). -/
theorem busWrite_lyReg (s : State) (v : Byte) : busWrite s 0xFF44 v = s := by
  simp [busWrite]

/-- R55. -/
theorem busWrite_bootReg (s : State) (v : Byte) :
    busWrite s 0xFF50 v = { rawWrite s 0xFF50 v with bootRomEnabled := false } := by
  rw [busWrite, gated_eq_false (a := 0xFF50) rfl rfl]
  rfl

/-- R56. -/
theorem busWrite_dmaReg (s : State) (v : Byte) : busWrite s 0xFF46 v = dmaStart (rawWrite s 0xFF46 v) v := by
  rw [busWrite, gated_eq_false (a := 0xFF46) rfl rfl]
  rfl

/-- R57. -/
theorem busWrite_divReg (s : State) (v : Byte) : busWrite s 0xFF04 v = resetDiv s := by
  rw [busWrite, gated_eq_false (a := 0xFF04) rfl rfl]
  rfl

/-- R58. -/
theorem busWrite_statReg (s : State) (v : Byte) :
    busWrite s 0xFF41 v = rawWrite s 0xFF41 ((v &&& 0xF8) ||| (raw s 0xFF41 &&& 0x07)) := by
  rw [busWrite, gated_eq_false (a := 0xFF41) rfl rfl]
  rfl

/-- R58. -/
theorem busWrite_lycReg (s : State) (v : Byte) :
    busWrite s 0xFF45 v =
      rawWrite (rawWrite s 0xFF45 v) 0xFF41 (withCoincidence (raw s 0xFF41) (s.ly == v.toNat)) := by
  rw [busWrite, gated_eq_false (a := 0xFF45) rfl rfl]
  rfl

/-- Every other store is a raw store, in VRAM and OAM where they are open too (R52, last case). -/
theorem busWrite_open {s : State} {a : Word} (hg : ¬gated s a = true) (hr : 0x8000 ≤ a.toNat) (h1 : a ≠ 0xFF50)
    (h2 : a ≠ 0xFF46) (h3 : a ≠ 0xFF04) (h4 : a ≠ 0xFF44) (h5 : a ≠ 0xFF41) (h6 : a ≠ 0xFF45) (v : Byte) :
    busWrite s a v = rawWrite s a v := by
  unfold busWrite
  rw [if_neg hg, if_neg (show ¬a.toNat ≤ 0x7FFF by omega), if_neg h1, if_neg h2, if_neg h3, if_neg h4, if_neg h5,
    if_neg h6]

/-- A raw store to a byte above the echo leaves every other address alone (R42). -/
theorem raw_rawWrite_io_frame (s : State) {a k : Word} (v : Byte) (ha : 0xFE00 ≤ a.toNat) (hk : k ≠ a) :
    raw (rawWrite s a v) k = raw s k :=
  raw_rawWrite_ne s v (phys_ne_of_io ha hk)

/-- A store to STAT takes bits 7..3 and keeps bits 2..0 (R58). -/
theorem stat_store_getLsbD (x v : Byte) {b : Nat} (hb : b < 8) :
    ((v &&& 0xF8) ||| (x &&& 0x07)).getLsbD b = if b < 3 then x.getLsbD b else v.getLsbD b := by
  interval_cases b <;> simp

/-- The comparison writes the coincidence bit and no other bit of STAT (R34, R58). -/
theorem withCoincidence_getLsbD (x : Byte) (e : Bool) {b : Nat} (hb : b < 8) :
    (withCoincidence x e).getLsbD b = if b = 2 then e else x.getLsbD b := by
  cases e <;> interval_cases b <;> simp [withCoincidence]

/-- Settles O48: each clause is the equation of `busWrite` at its address, read off storage. -/
theorem busWrites : Obligations.BusWrites := by
  rintro s t a v rfl lcd closed
  have hgate : gated s a = true ↔ closed := gated_iff s a
  refine ⟨?dropped, ?boot, ?div, ?stat, ?lyc, ?plain⟩
  case dropped =>
    rintro (h | h | rfl)
    · exact busWrite_dropped (.inl (hgate.mpr h)) v
    · exact busWrite_dropped (.inr h) v
    · exact busWrite_lyReg s v
  case boot =>
    rintro rfl
    rw [busWrite_bootReg]
    exact ⟨rfl, raw_rawWrite_self s _ v, fun k hk => raw_rawWrite_io_frame s v (by decide) hk⟩
  case div =>
    rintro rfl
    rw [busWrite_divReg]
    exact ⟨rfl, raw_rawWrite_self s 0xFF04 0, fun k hk => raw_rawWrite_io_frame s 0 (by decide) hk⟩
  case stat =>
    rintro rfl
    rw [busWrite_statReg]
    refine ⟨rfl, fun b hb => ?_, fun k hk => raw_rawWrite_io_frame s _ (by decide) hk⟩
    rw [raw_rawWrite_self, stat_store_getLsbD _ _ hb]
  case lyc =>
    rintro rfl
    rw [busWrite_lycReg]
    refine ⟨rfl, ?_, fun b hb => ?_, fun k hlyc hstat => ?_⟩
    · rw [raw_rawWrite_io_frame _ _ (by decide) (by decide), raw_rawWrite_self]
    · rw [raw_rawWrite_self, withCoincidence_getLsbD _ _ hb]
    · rw [raw_rawWrite_io_frame _ _ (by decide) hstat, raw_rawWrite_io_frame s v (by decide) hlyc]
  case plain =>
    intro hopen hrom h1 h2 h3 h4 h5 h6
    rw [busWrite_open (mt hgate.mp hopen) hrom h1 h2 h3 h4 h5 h6]
    exact ⟨rfl, raw_rawWrite_self s a v, fun k hk => raw_rawWrite_ne s v hk⟩

/-! ## The DMA register (R56, R350) -/

/-- Byte `i` of page `v` (R350). -/
theorem word_zero_add (v : Byte) (i : Nat) : word v 0 + BitVec.ofNat 16 i = BitVec.ofNat 16 (v.toNat * 256 + i) := by
  apply BitVec.eq_of_toNat_eq
  simp [word_toNat]

/-- Settles O49: the store is the register's raw store and then `dmaStart`, whose copy reaches OAM only. -/
theorem dmaStoreCopiesAndLocks : Obligations.DmaStoreCopiesAndLocks := by
  rintro s t v rfl
  rw [busWrite_dmaReg]
  refine ⟨rfl, ?register, fun i hi => ?copy, fun k hk hoam => ?frame, fun a ha => ?locked⟩
  case register => rw [raw_dmaStart_of_not_oam _ v rfl, raw_rawWrite_self]
  case copy => rw [raw_dmaStart_oam _ v hi, word_zero_add]
  case frame =>
    rw [raw_dmaStart_of_not_oam _ v ((inOam_eq_false_iff k).mpr hoam), raw_rawWrite_io_frame s v (by decide) hk]
  case locked => exact busRead_locked rfl ((inHram_eq_false_iff a).mpr ha)

/-! ## The joypad (R51) -/

theorem busRead_joyp {s : State} (h : s.dmaRunning = false) : busRead s 0xFF00 = joypRead s := by
  have hlog : (s.cfg.testLogMode && (0xFF00 : Word) == 0xFF44) = false := Bool.and_false _
  have hboot : bootByte s 0xFF00 = none := bootByte_of_ge (by decide)
  rw [busRead, h, hlog, gated_eq_false (a := 0xFF00) rfl rfl, hboot]
  rfl

/-- A group's line is 0 exactly when the group is selected and the button pressed. -/
theorem joypLines_getLsbD (selected b0 b1 b2 b3 : Bool) (i : Fin 4) :
    (joypLines selected b0 b1 b2 b3).getLsbD i = !(selected && ![b0, b1, b2, b3] i) := by
  revert selected b0 b1 b2 b3 i
  decide

theorem joypLines_getLsbD_high (selected b0 b1 b2 b3 : Bool) {i : Nat} (h : 4 ≤ i) (h8 : i < 8) :
    (joypLines selected b0 b1 b2 b3).getLsbD i = false := by
  revert selected b0 b1 b2 b3
  interval_cases i <;> decide

/-- The upper nibble reads as stored. -/
theorem joypRead_getLsbD_high (s : State) {i : Nat} (h : 4 ≤ i) (h8 : i < 8) :
    (joypRead s).getLsbD i = (raw s 0xFF00).getLsbD i := by
  have hm : (0xF0 : Byte).getLsbD i = true := by interval_cases i <;> rfl
  simp only [joypRead, BitVec.getLsbD_or, BitVec.getLsbD_and, joypLines_getLsbD_high _ _ _ _ _ h h8, hm, Bool.and_true,
    Bool.and_false, Bool.or_false]

/-- A bit of the lower nibble is 0 exactly when a selected group has its button pressed. -/
theorem joypRead_getLsbD_low (s : State) (i : Fin 4) :
    (joypRead s).getLsbD i =
      !((!(raw s 0xFF00).getLsbD 4 && ![s.buttons.right, s.buttons.left, s.buttons.up, s.buttons.down] i) ||
        (!(raw s 0xFF00).getLsbD 5 && ![s.buttons.a, s.buttons.b, s.buttons.select, s.buttons.start] i)) := by
  have hm : (0xF0 : Byte).getLsbD i = false := by revert i; decide
  simp only [joypRead, BitVec.getLsbD_or, BitVec.getLsbD_and, joypLines_getLsbD, hm, Bool.and_false, Bool.false_or,
    Bool.not_or]

/-- Settles O50: bit by bit, the lower nibble being the two groups' lines ANDed. -/
theorem joypadRead : Obligations.JoypadRead := by
  intro s hd
  rw [busRead_joyp hd]
  exact ⟨fun _ h4 h8 => joypRead_getLsbD_high s h4 h8, joypRead_getLsbD_low s 0, joypRead_getLsbD_low s 1,
    joypRead_getLsbD_low s 2, joypRead_getLsbD_low s 3⟩

/-! ## The fetch and the halt bug (R65, R251) -/

/-- A fetch changes nothing a read looks at. -/
@[simp] theorem busRead_afterFetch (s : State) (a : Word) : busRead (afterFetch s) a = busRead s a := by
  unfold afterFetch
  split <;> rfl

theorem instrLength_cases (op : Byte) : instrLength op = 1 ∨ instrLength op = 2 ∨ instrLength op = 3 := by
  unfold instrLength
  split <;> simp

theorem fetchInstr_of_length_one {s : State} (h : instrLength (busRead s s.pc) = 1) :
    fetchInstr s = (decodeBytes (busRead s s.pc) 0 0, afterFetch s) := by
  simp only [fetchInstr, fetchByte, h]

theorem fetchInstr_of_length_two {s : State} (h : instrLength (busRead s s.pc) = 2) :
    fetchInstr s =
      (decodeBytes (busRead s s.pc) (busRead s (afterFetch s).pc) 0, afterFetch (afterFetch s)) := by
  simp only [fetchInstr, fetchByte, h, busRead_afterFetch]

theorem fetchInstr_of_length_three {s : State} (h : instrLength (busRead s s.pc) = 3) :
    fetchInstr s =
      (decodeBytes (busRead s s.pc) (busRead s (afterFetch s).pc) (busRead s (afterFetch (afterFetch s)).pc),
        afterFetch (afterFetch (afterFetch s))) := by
  simp only [fetchInstr, fetchByte, h, busRead_afterFetch]

theorem afterFetch_setPc {s : State} (h : s.haltBug = false) (x : Word) :
    afterFetch { s with pc := x } = { s with pc := x + 1 } :=
  afterFetch_of_no_bug h

/-- The first byte uses the bug up, so of two bytes only the second moves PC (R65). -/
theorem afterFetch_twice_of_bug {s : State} (h : s.haltBug = true) :
    afterFetch (afterFetch s) = { s with haltBug := false, pc := s.pc + 1 } := by
  rw [afterFetch_of_bug h, afterFetch_of_no_bug rfl]

theorem afterFetch_thrice_of_bug {s : State} (h : s.haltBug = true) :
    afterFetch (afterFetch (afterFetch s)) = { s with haltBug := false, pc := s.pc + 2 } := by
  rw [afterFetch_twice_of_bug h, afterFetch_of_no_bug rfl, BitVec.add_assoc]
  rfl

/-- The fetch with the halt bug set, by the instruction's length (R251). -/
theorem fetchInstr_of_bug {s : State} (h : s.haltBug = true) :
    fetchInstr s =
      if instrLength (busRead s s.pc) = 1 then (decodeBytes (busRead s s.pc) 0 0, { s with haltBug := false })
      else if instrLength (busRead s s.pc) = 2 then
        (decodeBytes (busRead s s.pc) (busRead s s.pc) 0, { s with haltBug := false, pc := s.pc + 1 })
      else (decodeBytes (busRead s s.pc) (busRead s s.pc) (busRead s (s.pc + 1)),
        { s with haltBug := false, pc := s.pc + 2 }) := by
  have hpc : (afterFetch s).pc = s.pc := by rw [afterFetch_of_bug h]
  rcases instrLength_cases (busRead s s.pc) with hl | hl | hl
  · rw [fetchInstr_of_length_one hl, afterFetch_of_bug h, if_pos hl]
  · rw [fetchInstr_of_length_two hl, hpc, afterFetch_twice_of_bug h, hl, if_neg (by decide), if_pos rfl]
  · rw [fetchInstr_of_length_three hl, hpc, afterFetch_thrice_of_bug h, afterFetch_twice_of_bug h, hl,
      if_neg (by decide), if_neg (by decide)]

/-- The fetch without the halt bug moves PC past the instruction (R15, R65). -/
theorem fetchInstr_state_of_no_bug {s : State} (h : s.haltBug = false) :
    (fetchInstr s).2 = { s with pc := s.pc + BitVec.ofNat 16 (instrLength (busRead s s.pc)) } := by
  have h1 : afterFetch s = { s with pc := s.pc + 1 } := afterFetch_of_no_bug h
  have h2 : afterFetch (afterFetch s) = { s with pc := s.pc + 2 } := by
    rw [h1, afterFetch_setPc h, BitVec.add_assoc]
    rfl
  have h3 : afterFetch (afterFetch (afterFetch s)) = { s with pc := s.pc + 3 } := by
    rw [h2, afterFetch_setPc h, BitVec.add_assoc]
    rfl
  rcases instrLength_cases (busRead s s.pc) with hl | hl | hl
  · rw [fetchInstr_of_length_one hl, h1, hl]; rfl
  · rw [fetchInstr_of_length_two hl, h2, hl]; rfl
  · rw [fetchInstr_of_length_three hl, h3, hl]; rfl

/-- After a fetch the halt bug is used up (R36 item 6). -/
theorem fetchInstr_haltBug (s : State) : (fetchInstr s).2.haltBug = false := by
  cases h : s.haltBug with
  | false => rw [fetchInstr_state_of_no_bug h, h]
  | true =>
    rw [fetchInstr_of_bug h]
    split_ifs <;> rfl

/-- Settles O53: the first byte's fetch uses the bug up, and the later ones move PC. -/
theorem haltBugFetchesTwice : Obligations.HaltBugFetchesTwice :=
  fun s => ⟨fetchInstr_of_bug, fetchInstr_state_of_no_bug, fetchInstr_haltBug s⟩

end Sys2Proof.Machine
end

section
/-! The decoder and the encoder (30_encoding R80 to R94). First the decoding of every encoding, then the encoding of every
decoded slot, then the rows of the opcode table, and the statements from them. -/

namespace Sys2Proof.Machine

/-! ## From an instruction to its bytes and back (R81 to R90) -/

theorem decodes_illegal {op : Byte} (h : illegalOpcodes.contains op = true) : Decodes [op] (.illegal op) := by
  intro rest
  simp only [illegalOpcodes, List.contains_eq_mem, List.mem_cons, List.not_mem_nil, or_false, decide_eq_true_eq] at h
  rcases h with rfl | rfl | rfl | rfl | rfl | rfl | rfl | rfl | rfl | rfl | rfl <;> rfl

/-- Once each register, pair, condition or bit number stands in the opcode, the decoder computes on it. A word operand needs
its halves joined again; AF is no pair of `PUSH rr` and `POP rr`, and an illegal opcode is one of eleven. -/
theorem decodes_encode (i : Instr) (h : i.wf = true) : Decodes i.encode i.resolve := by
  cases i
  case illegal op => exact decodes_illegal h
  case popRr p | pushRr p =>
    cases p
    case af => cases h
    all_goals exact fun _ => rfl
  case ldRrN16 p n => cases p <;> exact decodes_three rfl (congrArg (Instr.ldRrN16 _) (word_hi_lo n))
  case ldN16Sp n => exact decodes_three rfl (congrArg Instr.ldN16Sp (word_hi_lo n))
  case ldN16A n => exact decodes_three rfl (congrArg Instr.ldN16A (word_hi_lo n))
  case ldAN16 n => exact decodes_three rfl (congrArg Instr.ldAN16 (word_hi_lo n))
  case jpN16 n => exact decodes_three rfl (congrArg Instr.jpN16 (word_hi_lo n))
  case jpCcN16 cc n => cases cc <;> exact decodes_three rfl (congrArg (Instr.jpCcN16 _) (word_hi_lo n))
  case callN16 n => exact decodes_three rfl (congrArg Instr.callN16 (word_hi_lo n))
  case callCcN16 cc n => cases cc <;> exact decodes_three rfl (congrArg (Instr.callCcN16 _) (word_hi_lo n))
  case incRr p | addHlRr p | decRr p => cases p <;> exact fun _ => rfl
  case jrCcS8 cc _ | retCc cc => cases cc <;> exact fun _ => rfl
  case incR r | decR r | ldRN8 r _ | ldRHl r | ldHlR r | addAR r | adcAR r | subAR r | sbcAR r | andAR r | xorAR r | orAR r
      | cpAR r | rlcR r | rrcR r | rlR r | rrR r | slaR r | sraR r | swapR r | srlR r => cases r <;> exact fun _ => rfl
  case ldRR dst src => cases dst <;> cases src <;> exact fun _ => rfl
  case rst b | bitBHl b | resBHl b | setBHl b => fin_cases b <;> exact fun _ => rfl
  case bitBR b r | resBR b r | setBR b r => fin_cases b <;> cases r <;> exact fun _ => rfl
  all_goals exact fun _ => rfl

/-- Only the CB page is resolved (R255; log 11). -/
theorem resolve_of_ne_prefixCb {i : Instr} (h : ∀ op2 : Byte, i ≠ .prefixCb op2) : i.resolve = i := by
  unfold Instr.resolve
  split
  · exact absurd rfl (h _)
  · rfl

theorem decodes_of_encode {i : Instr} {bytes : List Byte} (hw : i.wf = true) (hr : i.resolve = i) (he : i.encode = bytes) :
    Decodes bytes i := by
  have h := decodes_encode i hw
  rwa [he, hr] at h

/-- Settles O1: the constructors of `Instr` one by one. -/
theorem decodeEncodeRoundTrip : Obligations.DecodeEncodeRoundTrip :=
  ⟨fun i rest h => decodes_encode i h rest, fun _ => rfl, fun _ => resolve_of_ne_prefixCb⟩

/-- Settles O4: the words are encodings. -/
theorem specWordsDecode : Obligations.SpecWordsDecode := by
  refine ⟨?_, ?_, ?_, ?_, ?_, ?_, ?_, ?_, ?_, ?_, ?_, ?_, ?_, ?_, ?_, ?_, ?_⟩ <;> exact decodes_of_encode rfl rfl rfl

/-! ## The slots of the opcode pages, by the fields of the opcode byte (R81, R83 to R87) -/

/-- The opcode byte with the fields `x`, `y` and `z`. -/
def opOfFields (x : Fin 4) (y z : Fin 8) : Byte := opByte (x.val * 64 + y.val * 8 + z.val)

theorem opOfFields_fields (op : Byte) : opOfFields (fieldX op) (fieldY op) (fieldZ op) = op := by
  apply BitVec.eq_of_toNat_eq
  simp only [opOfFields, opByte, fieldX, fieldY, fieldZ, BitVec.toNat_ofNat]
  omega

theorem opOfFields_toNat (x : Fin 4) (y z : Fin 8) : (opOfFields x y z).toNat = x.val * 64 + y.val * 8 + z.val := by
  simp only [opOfFields, opByte, BitVec.toNat_ofNat]
  omega

@[simp] theorem fieldX_opOfFields (x : Fin 4) (y z : Fin 8) : fieldX (opOfFields x y z) = x := by
  simp only [fieldX, opOfFields_toNat, Fin.ext_iff]
  omega

@[simp] theorem fieldY_opOfFields (x : Fin 4) (y z : Fin 8) : fieldY (opOfFields x y z) = y := by
  simp only [fieldY, opOfFields_toNat, Fin.ext_iff]
  omega

@[simp] theorem fieldZ_opOfFields (x : Fin 4) (y z : Fin 8) : fieldZ (opOfFields x y z) = z := by
  simp only [fieldZ, opOfFields_toNat, Fin.ext_iff]
  omega

/-- The instruction is one of the table and these are its bytes. -/
def IsEncoding (i : Instr) (bytes : List Byte) : Prop := i.wf = true ∧ i.encode = bytes

/-- As many bytes as the opcode byte asks for, from it and the halves of the word after it (R80, R88). -/
def slotBytes (op : Byte) (n : Word) : List Byte := [op, loByte n, hiByte n].take (instrLength op)

/-- The 64 slots of the page's first quarter, each with its operand left open; so the three that follow. -/
theorem isEncoding_decodeX0 (y z : Fin 8) (n : Word) :
    IsEncoding (decodeX0 y z (loByte n) n) (slotBytes (opOfFields 0 y z) n) := by
  fin_cases z <;> fin_cases y <;> exact ⟨rfl, rfl⟩

theorem isEncoding_decodeX1 (y z : Fin 8) (n : Word) : IsEncoding (decodeX1 y z) (slotBytes (opOfFields 1 y z) n) := by
  fin_cases y <;> fin_cases z <;> exact ⟨rfl, rfl⟩

theorem isEncoding_decodeX2 (y z : Fin 8) (n : Word) : IsEncoding (decodeX2 y z) (slotBytes (opOfFields 2 y z) n) := by
  fin_cases y <;> fin_cases z <;> exact ⟨rfl, rfl⟩

theorem isEncoding_decodeX3 (y z : Fin 8) (n : Word) :
    IsEncoding (decodeX3 (opOfFields 3 y z) y z (loByte n) n) (slotBytes (opOfFields 3 y z) n) := by
  fin_cases z <;> fin_cases y <;> exact ⟨rfl, rfl⟩

theorem isEncoding_decodeBase (op : Byte) (n : Word) :
    IsEncoding (decodeBase op (loByte n) (hiByte n)) (slotBytes op n) := by
  have hop := opOfFields_fields op
  generalize fieldX op = x, fieldY op = y, fieldZ op = z at hop
  subst hop
  simp only [decodeBase, fieldX_opOfFields, fieldY_opOfFields, fieldZ_opOfFields, word_hi_lo]
  fin_cases x
  · exact isEncoding_decodeX0 y z n
  · exact isEncoding_decodeX1 y z n
  · exact isEncoding_decodeX2 y z n
  · exact isEncoding_decodeX3 y z n

theorem isEncoding_decodeCb (op : Byte) : IsEncoding (decodeCb op) [0xCB, op] := by
  unfold IsEncoding
  revert op
  decide +kernel

/-- `prefixCb op2` and the CB-page instruction it is resolved to have the same bytes (R255; log 11). -/
theorem IsEncoding.resolve {i : Instr} {bytes : List Byte} (h : IsEncoding i bytes) : IsEncoding i.resolve bytes := by
  obtain ⟨-, rfl⟩ := id h
  unfold Instr.resolve
  split
  case h_1 op2 => exact isEncoding_decodeCb op2
  case h_2 => exact h

theorem decodeCb_ne_prefixCb (op op2 : Byte) : decodeCb op ≠ .prefixCb op2 := by
  unfold decodeCb
  split <;> nofun

theorem resolve_ne_prefixCb (i : Instr) (op2 : Byte) : i.resolve ≠ .prefixCb op2 := by
  unfold Instr.resolve
  split
  case h_1 op => exact decodeCb_ne_prefixCb op op2
  case h_2 h => exact h op2

/-! ## What a decoded list of bytes is (R82, R94) -/

/-- A list that decodes begins with the bytes of one slot and gives that slot's instruction. -/
theorem decode_cases {bytes rest : List Byte} {i : Instr} (h : decode bytes = .ok (i, rest)) :
    ∃ (op : Byte) (n : Word), i = decodeBytes op (loByte n) (hiByte n) ∧ bytes = slotBytes op n ++ rest := by
  unfold decode at h
  split at h
  · cases h
  · next op tail =>
    unfold slotBytes
    split at h
    · next hl => cases h; exact ⟨op, word 0 0, rfl, by rw [hl]; rfl⟩
    · next b1 _ hl => cases h; exact ⟨op, word 0 b1, by simp, by simp [hl]⟩
    · next b1 b2 _ hl => cases h; exact ⟨op, word b2 b1, by simp, by simp [hl]⟩
    · cases h

/-- Settles O2: the slot a list begins with is the encoding of the slot's instruction. -/
theorem decodedBytesEncodeBack : Obligations.DecodedBytesEncodeBack := by
  intro bytes i rest h
  obtain ⟨op, n, rfl, rfl⟩ := decode_cases h
  obtain ⟨hw, he⟩ := (isEncoding_decodeBase op n).resolve
  exact ⟨hw, resolve_ne_prefixCb _, congrArg (· ++ rest) he.symm⟩

/-- Three bytes hold every instruction (R94). -/
theorem exists_decode_three (op b1 b2 : Byte) (rest : List Byte) :
    ∃ i left, decode (op :: b1 :: b2 :: rest) = .ok (i, left) := by
  rcases instrLength_cases op with hl | hl | hl <;> simp only [decode, hl] <;> exact ⟨_, _, rfl⟩

/-! ## The rows of the opcode table (R89 to R91) -/

theorem mnemonic_decodeX0 (y z : Fin 8) (b c : Byte) (m n : Word) :
    (decodeX0 y z b m).mnemonic = (decodeX0 y z c n).mnemonic := by
  unfold decodeX0
  split <;> split <;> rfl

theorem mnemonic_decodeX3 (op : Byte) (y z : Fin 8) (b c : Byte) (m n : Word) :
    (decodeX3 op y z b m).mnemonic = (decodeX3 op y z c n).mnemonic := by
  unfold decodeX3
  split
  case h_8 => rfl
  all_goals split <;> rfl

/-- The opcode byte alone decides the mnemonic (R82). -/
theorem mnemonic_decodeBase (op b1 b2 c1 c2 : Byte) :
    (decodeBase op b1 b2).mnemonic = (decodeBase op c1 c2).mnemonic := by
  unfold decodeBase
  split
  · exact mnemonic_decodeX0 ..
  · rfl
  · rfl
  · exact mnemonic_decodeX3 ..

/-- The rows of a page that select an opcode (R90). -/
def rowsSelecting (page : Bool) (op : Byte) : List OpcodeRow :=
  (opcodeRows.filter fun row => row.cbPage == page).filter fun row => row.selects op

theorem mem_rowsSelecting {page : Bool} {op : Byte} {row : OpcodeRow} :
    row ∈ rowsSelecting page op ↔ row ∈ opcodeRows ∧ row.cbPage = page ∧ row.selects op = true := by
  simp only [rowsSelecting, List.mem_filter, beq_iff_eq, and_assoc]

theorem rowsSelecting_basePage (op : Byte) : (rowsSelecting false op).map (fun row => (row.mnemonic, row.length)) =
    [((decodeBase op 0 0).mnemonic, instrLength op)] := by
  revert op
  decide +kernel

theorem rowsSelecting_cbPage (op : Byte) : (rowsSelecting true op).map (fun row => (row.mnemonic, row.length)) =
    [((decodeCb op).mnemonic, 2)] := by
  revert op
  decide +kernel

/-- A page on which one row selects the opcode has that row and no other. -/
theorem exists_row_of_rowsSelecting {page : Bool} {op : Byte} {m : String} {k : Nat}
    (h : (rowsSelecting page op).map (fun row => (row.mnemonic, row.length)) = [(m, k)]) :
    ∃ row ∈ opcodeRows, row.cbPage = page ∧ row.selects op = true ∧
      (∀ q ∈ opcodeRows, q.cbPage = page → q.selects op = true → q = row) ∧ m = row.mnemonic ∧ k = row.length := by
  obtain ⟨row, hrow, hmk⟩ := List.map_eq_singleton_iff.mp h
  injection hmk with hm hk
  have mem_iff (q : OpcodeRow) : q ∈ opcodeRows ∧ q.cbPage = page ∧ q.selects op = true ↔ q = row := by
    rw [← mem_rowsSelecting, hrow, List.mem_singleton]
  obtain ⟨hin, hpage, hsel⟩ := (mem_iff row).mpr rfl
  exact ⟨row, hin, hpage, hsel, fun q hq hp hs => (mem_iff q).mp ⟨hq, hp, hs⟩, hm.symm, hk.symm⟩

/-- Settles O3: on each page the rows that select an opcode are one, with its mnemonic and length. -/
theorem everyOpcodeSelectsExactlyOneRow : Obligations.EveryOpcodeSelectsExactlyOneRow := by
  intro op b1 b2
  refine ⟨?_, ?_, exists_decode_three op b1 b2⟩
  · rw [mnemonic_decodeBase op b1 b2 0 0]
    exact exists_row_of_rowsSelecting (rowsSelecting_basePage op)
  · obtain ⟨row, hin, hpage, hsel, huniq, hm, hk⟩ := exists_row_of_rowsSelecting (rowsSelecting_cbPage op)
    exact ⟨row, hin, hpage, hsel, huniq, hm, hk.symm⟩

end Sys2Proof.Machine
end

section
/-! The 8-bit loads (40_load8 R100 to R118): one lemma for each kind of operation, a register written, a byte stored, a store
or a load with HL stepped; the statements are their instances. -/

namespace Sys2Proof.Machine

/-! ## What an operation answers (R92) -/

/-- The count grows from the state before the instruction (R92). -/
theorem done_of_cycles {s u : State} (h : u.cycles = s.cycles) (k : Nat) :
    done k u = .next { u with cycles := s.cycles + k } := by
  rw [done, h]

/-! ## A register written (R83) -/

theorem reg8_setCycles (s : State) (n : Nat) (r : Reg8) : reg8 { s with cycles := n } r = reg8 s r := by
  cases r <;> rfl

theorem onlyReg8_setReg8 (s : State) (r : Reg8) (v : Byte) (k : Nat) :
    s.OnlyReg8 { setReg8 s r v with cycles := s.cycles + k } k := by
  cases r <;> rfl

/-- An instruction that only writes a register. -/
theorem exec_of_setReg8 {i : Instr} {s : State} {r : Reg8} {v : Byte} {k : Nat} (h : exec i s = done k (setReg8 s r v)) :
    ∃ t, exec i s = .next t ∧ reg8 t r = v ∧ (∀ q, q ≠ r → reg8 t q = reg8 s q) ∧ s.OnlyReg8 t k := by
  refine ⟨_, h.trans (done_of_cycles (setReg8_cycles s r v) k), ?_, fun q hq => ?_, onlyReg8_setReg8 s r v k⟩
  · rw [reg8_setCycles, reg8_setReg8_self]
  · rw [reg8_setCycles, reg8_setReg8, if_neg hq]

/-- Settles O16: each form writes one register. -/
theorem registerLoads : Obligations.RegisterLoads := by
  intro dst r n s
  simp only [List.forall_mem_cons]
  refine ⟨?register, ?immediate, ?memory, List.forall_mem_nil _⟩ <;>
    exact ⟨decodes_of_encode rfl rfl rfl, exec_of_setReg8 rfl⟩

/-- Settles O17: each form's arm of `exec` is the stated update; the two `LDH` forms need the high page's address. -/
theorem accumulatorLoads : Obligations.AccumulatorLoads := by
  intro n w s
  simp only [List.forall_mem_cons, ← highPage_eq]
  refine ⟨?bc, ?de, ?n16, ?highC, ?highN8, List.forall_mem_nil _⟩ <;> exact ⟨decodes_of_encode rfl rfl rfl, _, rfl, rfl⟩

/-! ## A byte stored (R52) -/

theorem raw_busWrite_plain_self (s : State) {a : Word} (h : plainStore a = true) (v : Byte) :
    raw (busWrite s a v) a = v := by
  rw [busWrite_plain h, raw_rawWrite_self]

/-- An instruction that only stores a byte. -/
theorem exec_of_busWrite {i : Instr} {s : State} {a : Word} {v : Byte} {k : Nat} (h : exec i s = done k (busWrite s a v)) :
    ∃ t, exec i s = .next t ∧ t = { busWrite s a v with cycles := s.cycles + k } ∧ s.SameCpu t ∧
      (∀ j : Word, storeReaches a j = false → raw t j = raw s j) ∧
      (plainStore a = true → raw t a = v ∧ t = { s with mem := t.mem, cycles := s.cycles + k }) := by
  refine ⟨_, h.trans (done_of_cycles (busWrite_cycles s a v) k), rfl, State.sameCpu_busWrite s a v,
    fun j hj => raw_busWrite_frame v hj, fun hp => ⟨raw_busWrite_plain_self s hp v, ?_⟩⟩
  rw [busWrite_plain hp]
  rfl

/-- Settles O18: each form makes one store. -/
theorem byteStores : Obligations.ByteStores := by
  intro r n w s
  simp only [List.forall_mem_cons, ← highPage_eq]
  refine ⟨?hlR, ?hlN8, ?bc, ?de, ?n16, ?highC, ?highN8, List.forall_mem_nil _⟩ <;>
    exact ⟨decodes_of_encode rfl rfl rfl, exec_of_busWrite rfl⟩

/-! ## HL stepped (R115 to R118) -/

theorem State.SameCpu.setHl {s t : State} (h : s.SameCpu t) (w : Word) :
    (Machine.setHl s w).SameCpu (Machine.setHl t w) := by
  obtain ⟨ha, hf, hb, hc, hd, he, -, -, hrest⟩ := h
  exact ⟨ha, hf, hb, hc, hd, he, rfl, rfl, hrest⟩

/-- An instruction that stores A at HL and then writes HL: the store works on the HL from before. -/
theorem exec_of_store_setHl {i : Instr} {s : State} {w : Word} {k : Nat}
    (h : exec i s = done k (setHl (busWrite s (hl s) s.a) w)) :
    ∃ t, exec i s = .next t ∧ hl t = w ∧
      t = { busWrite s (hl s) s.a with h := t.h, l := t.l, cycles := s.cycles + k } ∧
      { s with h := t.h, l := t.l }.SameCpu t ∧ (∀ j : Word, storeReaches (hl s) j = false → raw t j = raw s j) ∧
      (plainStore (hl s) = true → raw t (hl s) = s.a) :=
  ⟨_, h.trans (done_of_cycles ((setHl_cycles _ w).trans (busWrite_cycles s (hl s) s.a)) k), word_hi_lo w, rfl,
    (State.sameCpu_busWrite s (hl s) s.a).setHl w, fun _ hj => raw_busWrite_frame s.a hj,
    fun hp => raw_busWrite_plain_self s hp s.a⟩

/-- An instruction that loads A and then writes HL. -/
theorem exec_of_load_setHl {i : Instr} {s : State} {v : Byte} {w : Word} {k : Nat}
    (h : exec i s = done k (setHl { s with a := v } w)) :
    ∃ t, exec i s = .next t ∧ hl t = w ∧ t = { s with a := v, h := t.h, l := t.l, cycles := s.cycles + k } :=
  ⟨_, h, word_hi_lo w, rfl⟩

/-- Settles O19: a store or a load at HL, and the new HL written. -/
theorem hlSteppingLoadsAndStores : Obligations.HlSteppingLoadsAndStores := by
  intro s
  simp only [List.forall_mem_cons]
  refine ⟨⟨?storeInc, ?storeDec, List.forall_mem_nil _⟩, ?loadInc, ?loadDec, List.forall_mem_nil _⟩
  case storeInc | storeDec => exact ⟨decodes_of_encode rfl rfl rfl, exec_of_store_setHl rfl⟩
  case loadInc | loadDec => exact ⟨decodes_of_encode rfl rfl rfl, exec_of_load_setHl rfl⟩

end Sys2Proof.Machine
end

section
/-! The 16-bit loads and the stack (41_load16_stack R130 to R140): a pair written, two bytes stored, a word pushed, a word
popped; last, a push undone by its pop. -/

namespace Sys2Proof.Machine

/-! ## A pair written (R84) -/

theorem r16_setR16 (s : State) (q p : R16) (v : Word) : r16 (setR16 s p v) q = if q = p then v else r16 s q := by
  cases p <;> cases q <;> simp [r16, setR16, setHl, bc, de, hl]

theorem r16_setCycles (s : State) (n : Nat) (p : R16) : r16 { s with cycles := n } p = r16 s p := by
  cases p <;> rfl

/-- An instruction that only writes a pair. -/
theorem exec_of_setR16 {i : Instr} {s : State} {p : R16} {v : Word} {k : Nat} (h : exec i s = done k (setR16 s p v)) :
    ∃ t, exec i s = .next t ∧ r16 t p = v ∧ (∀ q, q ≠ p → r16 t q = r16 s q) ∧
      t = { s with b := t.b, c := t.c, d := t.d, e := t.e, h := t.h, l := t.l, sp := t.sp, cycles := s.cycles + k } := by
  refine ⟨_, h.trans (done_of_cycles (setR16_cycles s p v) k), ?_, fun q hq => ?_, ?_⟩
  · rw [r16_setCycles, r16_setR16_self]
  · rw [r16_setCycles, r16_setR16, if_neg hq]
  · cases p <;> rfl

/-- Settles O20: both forms write one pair, `LD SP,HL` the pair SP. -/
theorem pairLoads : Obligations.PairLoads :=
  ⟨fun _ _ _ => ⟨decodes_of_encode rfl rfl rfl, exec_of_setR16 rfl⟩, fun _ => ⟨decodes_of_encode rfl rfl rfl, rfl⟩⟩

/-! ## Two bytes stored (R131) -/

theorem State.SameCpu.trans {s t u : State} (h : s.SameCpu t) (g : t.SameCpu u) : s.SameCpu u := by
  obtain ⟨ha, hf, hb, hc, hd, he, hh, hl, hsp, hpc, hime, hhalted, hbug, hdelay⟩ := h
  rwa [State.SameCpu, ha, hf, hb, hc, hd, he, hh, hl, hsp, hpc, hime, hhalted, hbug, hdelay] at g

theorem State.sameCpu_two_busWrites (s : State) (a b : Word) (v w : Byte) :
    s.SameCpu (busWrite (busWrite s a v) b w) :=
  (State.sameCpu_busWrite s a v).trans (State.sameCpu_busWrite _ b w)

/-- Settles O21: the two stores go to neighbouring addresses, which are different bytes. -/
theorem stackPointerStore : Obligations.StackPointerStore := fun n s =>
  ⟨decodes_of_encode rfl rfl rfl, _, done_of_cycles (by simp) 20, rfl, State.sameCpu_two_busWrites s n (n + 1) _ _,
    fun _ => raw_two_busWrites_frame s _ _, raw_two_busWrites s _ _ (phys_ne_phys_succ n)⟩

/-! ## A word pushed (R135, R137, R138) -/

theorem State.SameCpu.setSp {s t : State} (h : s.SameCpu t) (w : Word) : { s with sp := w }.SameCpu { t with sp := w } := by
  obtain ⟨ha, hf, hb, hc, hd, he, hh, hl, -, hrest⟩ := h
  exact ⟨ha, hf, hb, hc, hd, he, hh, hl, rfl, hrest⟩

theorem State.sameCpu_push16 (s : State) (v : Word) : { s with sp := s.sp - 2 }.SameCpu (push16 s v) :=
  (State.sameCpu_two_busWrites s (s.sp - 1) (s.sp - 2) (hiByte v) (loByte v)).setSp (s.sp - 2)

/-- Both bytes of a word pushed into plain storage read back. -/
theorem raw_push16_plain (s : State) (v : Word) (h1 : plainStore (s.sp - 1) = true) (h2 : plainStore (s.sp - 2) = true) :
    raw (push16 s v) (s.sp - 1) = hiByte v ∧ raw (push16 s v) (s.sp - 2) = loByte v :=
  raw_two_busWrites s _ _ (phys_push_ne s.sp) h1 h2

/-- `PUSH` has one meaning for the four pairs. -/
theorem exec_push (p : R16S) (s : State) :
    exec (if p = .af then .pushAf else .pushRr p) s = done 16 (push16 s (r16s s p)) := by
  cases p <;> rfl

/-- Settles O22: the rules of `push16`, at the pair's word. -/
theorem pushStoresThePair : Obligations.PushStoresThePair := by
  refine ⟨fun p hp => decodes_of_encode (bne_iff_ne.mpr hp) rfl rfl, decodes_of_encode rfl rfl rfl, ?_⟩
  rintro p i s rfl
  exact ⟨_, (exec_push p s).trans (done_of_cycles (push16_cycles s _) 16), rfl, State.sameCpu_push16 s _,
    fun _ => raw_push16_frame _, raw_push16_plain s _⟩

/-! ## A word popped (R136, R139, R140) -/

/-- A pair of the stack group takes the word as it is, AF only one whose low nibble is 0 (R13). -/
theorem r16s_setR16s (s : State) (q : R16S) {p : R16S} {v : Word} (h : p = .af → loByte v &&& 0xF0 = loByte v) :
    r16s (setR16s s p v) q = if q = p then v else r16s s q := by
  cases p
  case af =>
    have hv : word (hiByte v) (loByte v &&& 0xF0) = v := by rw [h rfl, word_hi_lo]
    cases q
    case af => exact hv
    all_goals rfl
  all_goals cases q <;> simp [r16s, setR16s, setHl, bc, de, hl, af]

theorem r16s_setCycles (s : State) (n : Nat) (p : R16S) : r16s { s with cycles := n } p = r16s s p := by
  cases p <;> rfl

theorem r16s_popStack (s : State) (p : R16S) : r16s (popStack s) p = r16s s p := by
  cases p <;> rfl

/-- `POP` has one meaning for the four pairs. -/
theorem exec_pop (p : R16S) (s : State) :
    exec (if p = .af then .popAf else .popRr p) s = done 12 (setR16s (popStack s) p (popValue s)) := by
  cases p <;> rfl

/-- `POP` of a word the pair can take: the pair holds it, the other pairs stay. -/
theorem r16s_pop (s : State) (q : R16S) {p : R16S} {v : Word} (n : Nat) (h : p = .af → loByte v &&& 0xF0 = loByte v) :
    r16s { setR16s (popStack s) p v with cycles := n } q = if q = p then v else r16s s q := by
  rw [r16s_setCycles, r16s_setR16s _ _ h, r16s_popStack]

/-- Settles O23: `POP rr` writes one pair of the stack group and SP; the halves of AF's word are the two bytes read. -/
theorem popLoadsThePair : Obligations.PopLoadsThePair := by
  refine ⟨fun p s hp => ⟨decodes_of_encode (bne_iff_ne.mpr hp) rfl rfl, _,
    done_of_cycles (s := s) (setR16s_cycles (popStack s) p (popValue s)) 12, ?pair, fun q hq => ?others, ?frame⟩,
    fun s => ⟨decodes_of_encode rfl rfl rfl, ?af⟩⟩
  case pair => rw [r16s_pop s p _ fun h => absurd h hp, if_pos rfl, popValue]
  case others => rw [r16s_pop s q _ fun h => absurd h hp, if_neg hq]
  case frame =>
    cases p
    case af => exact absurd rfl hp
    all_goals rfl
  case af =>
    rw [show exec .popAf s = _ from exec_pop .af s]
    simp [done, setR16s, setF, popStack, popValue]

/-! ## A push undone by the pop (R137) -/

/-- Clearing a low nibble that is 0 changes nothing (R13). -/
theorem and_F0_of_low {v : Byte} (h : v &&& 0x0F = 0) : v &&& 0xF0 = v :=
  calc v &&& 0xF0 = v &&& 0xF0 ||| v &&& 0x0F := by rw [h]; exact BitVec.or_zero.symm
    _ = v &&& (0xF0 ||| 0x0F) := BitVec.and_or_distrib_left.symm
    _ = v := BitVec.and_allOnes

/-- Every pair can take its own word back. -/
theorem State.FlagsOk.loByte_r16s {s : State} (h : s.FlagsOk) {p : R16S} (hp : p = .af) :
    loByte (r16s s p) &&& 0xF0 = loByte (r16s s p) := by
  subst hp
  rw [show loByte (r16s s .af) = s.f from loByte_word s.a s.f, and_F0_of_low h]

theorem r16s_push16 (s : State) (v : Word) (p : R16S) : r16s (push16 s v) p = r16s s p := by
  cases p <;> simp [r16s, bc, de, hl, af]

/-- A store to plain storage starts no DMA (R56). -/
theorem busWrite_plain_dmaRunning (s : State) {a : Word} (h : plainStore a = true) (v : Byte) :
    (busWrite s a v).dmaRunning = s.dmaRunning := by
  rw [busWrite_plain h, rawWrite_dmaRunning]

/-- A word pushed into RAM is the word a pop returns, unless a DMA locks RAM out. -/
theorem popValue_push16 {s : State} (v : Word) (hd : s.dmaRunning = false) (h1 : ramByte (s.sp - 1) = true)
    (h2 : ramByte (s.sp - 2) = true) : popValue (push16 s v) = v := by
  have hp1 := plainStore_of_ram h1
  have hp2 := plainStore_of_ram h2
  have hd' : (push16 s v).dmaRunning = false := by
    rw [← hd, ← busWrite_plain_dmaRunning s hp1 (hiByte v)]
    exact busWrite_plain_dmaRunning _ hp2 (loByte v)
  obtain ⟨hhi, hlo⟩ := raw_push16_plain s v hp1 hp2
  have hsp : s.sp - 2 + 1 = s.sp - 1 := by bv_omega
  rw [popValue, push16_sp, hsp, busRead_ram h1 (.inl hd'), busRead_ram h2 (.inl hd'), hhi, hlo, word_hi_lo]

/-- Settles O24: the pop returns the word pushed, which the pair takes back as it is. -/
theorem pushThenPopRestores : Obligations.PushThenPopRestores := by
  rintro p push pop s rfl rfl hf hd h1 h2
  have hv := popValue_push16 (r16s s p) hd h1 h2
  refine ⟨_, _, (exec_push p s).trans (done_of_cycles (push16_cycles s _) 16),
    (exec_pop p _).trans (done_of_cycles (setR16s_cycles _ p _) 12), fun q => ?pairs, ?sp, rfl⟩
  case pairs =>
    rw [show popValue { push16 s (r16s s p) with cycles := s.cycles + 16 } = r16s s p from hv,
      r16s_pop _ q _ hf.loByte_r16s, r16s_setCycles (push16 s _), r16s_push16]
    exact ite_eq_right_iff.mpr fun h => h ▸ rfl
  case sp => simp

end Sys2Proof.Machine
end

section
/-! The 8-bit arithmetic and logic (42_alu8 R150 to R183). First the sums, differences and decimal digits on bytes, then one
lemma for each kind of operation: A and the flags written, a register and the flags, a byte stored and the flags, a `DAA`
after an operation on A. The statements are their instances. -/

namespace Sys2Proof.Machine

/-! ## Results on bytes (R150, R151, R180) -/

@[simp] theorem bit_false : bit false = 0 := rfl

theorem toNat_add8 (a b : Byte) (cin : Bool) : (add8 a b cin).toNat = (a.toNat + b.toNat + bit cin) % 256 :=
  BitVec.toNat_ofNat _ 8

theorem toNat_sub8 (a b : Byte) (cin : Bool) :
    ((sub8 a b cin).toNat : Int) = ((a.toNat : Int) - b.toNat - bit cin) % 256 := by
  rw [sub8, BitVec.toNat_ofInt]
  exact Int.toNat_of_nonneg (Int.emod_nonneg _ (by decide))

/-- The correction of `DAA` does not wrap: it is at most 0x66. -/
theorem toNat_daaOffset (a : Byte) (n h c : Bool) :
    (daaOffset a n h c).toNat = (if daaHigh a n c then 0x60 else 0) + (if daaLow a n h then 0x06 else 0) := by
  unfold daaOffset
  split <;> split <;> rfl

theorem toNat_daaResult (a : Byte) (n h c : Bool) :
    ((daaResult a n h c).toNat : Int) =
      (if n then (a.toNat : Int) - (daaOffset a n h c).toNat else a.toNat + (daaOffset a n h c).toNat) % 256 := by
  have ho := (daaOffset a n h c).isLt
  unfold daaResult
  cases n
  case false => simp
  case true =>
    simp only [if_true, BitVec.toNat_sub]
    omega

/-- `DAA` never clears C; after an addition it sets C where it corrects the high digit (R180). -/
theorem daaHigh_eq_or (a : Byte) (n c : Bool) : daaHigh a n c = (c || (!n && daaHigh a n c)) := by
  cases n <;> cases c <;> rfl

/-! ## Two-digit decimal numbers -/

/-- The number whose two hexadecimal digits are the two decimal digits of `x`. -/
def packed (x : Nat) : Nat := x / 10 * 16 + x % 10

/-- A two-digit decimal number in a byte, one digit in each nibble. -/
def bcd (x : Nat) : Byte := BitVec.ofNat 8 (packed x)

theorem packed_le {x : Nat} (hx : x < 100) : packed x ≤ 0x99 := by
  unfold packed
  omega

theorem toNat_bcd {x : Nat} (hx : x < 100) : (bcd x).toNat = packed x := by
  have hp := packed_le hx
  rw [bcd, BitVec.toNat_ofNat]
  omega

theorem bcd_mod_100 (x : Nat) : bcd (x % 100) = BitVec.ofNat 8 (x % 100 / 10 * 16 + x % 10) := by
  rw [bcd, packed, Nat.mod_mod_of_dvd x (by decide : 10 ∣ 100)]

/-- A packed sum is above 0x99 exactly when the sum has a third digit. -/
theorem packed_add_gt_iff (x y : Nat) : 0x99 < packed x + packed y ↔ 100 ≤ x + y := by
  unfold packed
  omega

section

variable {x y : Nat} (hx : x < 100) (hy : y < 100)
include hx hy

/-- Packed numbers add like numbers, after a correction of 6 for a carry from the low digit and of 0x60 for one from the
high digit, which leaves as 0x100. -/
theorem packed_add :
    packed x + packed y + (if 100 ≤ x + y then 0x60 else 0) + (if 9 < x % 10 + y % 10 then 0x06 else 0) =
      packed ((x + y) % 100) + (if 100 ≤ x + y then 0x100 else 0) := by
  unfold packed
  split_ifs <;> omega

/-- Packed numbers subtract like numbers, with the same corrections for the borrows. -/
theorem packed_sub :
    packed x + (if x < y then 0x100 else 0) =
      packed y + packed ((x + 100 - y) % 100) + (if x < y then 0x60 else 0) + (if x % 10 < y % 10 then 0x06 else 0) := by
  unfold packed
  split_ifs <;> omega

/-- After a sum `DAA` corrects the low digit when the two low digits carry. -/
theorem daaLow_add_bcd : daaLow (add8 (bcd x) (bcd y) false) false (add8H (bcd x) (bcd y) false) =
    decide (9 < x % 10 + y % 10) := by
  simp only [daaLow, add8H, toNat_add8, toNat_bcd hx, toNat_bcd hy, packed, bit_false, Bool.false_eq_true, if_false,
    ← Bool.decide_or, decide_eq_decide]
  omega

/-- After a sum it corrects the high digit when the high digits carry. -/
theorem daaHigh_add_bcd : daaHigh (add8 (bcd x) (bcd y) false) false (add8C (bcd x) (bcd y) false) =
    decide (100 ≤ x + y) := by
  have hpx := packed_le hx
  have hpy := packed_le hy
  simp only [daaHigh, add8C, toNat_add8, toNat_bcd hx, toNat_bcd hy, bit_false, Bool.false_eq_true, if_false,
    ← Bool.decide_or, decide_eq_decide, ← packed_add_gt_iff x y]
  omega

/-- The corrections take the packed sum to the packed digits; a 0x100 is out of the byte. -/
theorem daaResult_add_bcd :
    daaResult (add8 (bcd x) (bcd y) false) false (add8H (bcd x) (bcd y) false) (add8C (bcd x) (bcd y) false) =
      bcd ((x + y) % 100) := by
  have hlt : (x + y) % 100 < 100 := Nat.mod_lt _ (by decide)
  have hpr := packed_le hlt
  have hsum := packed_add hx hy
  apply BitVec.eq_of_toNat_eq
  apply Int.ofNat_inj.mp
  rw [toNat_daaResult, toNat_daaOffset, daaLow_add_bcd hx hy, daaHigh_add_bcd hx hy, toNat_add8, toNat_bcd hx,
    toNat_bcd hy, toNat_bcd hlt]
  simp only [bit_false, Bool.false_eq_true, if_false, decide_eq_true_eq]
  split_ifs at hsum ⊢ <;> omega

/-- A difference borrows at bit 3 when the low digits borrow. -/
theorem sub8H_bcd : sub8H (bcd x) (bcd y) false = decide (x % 10 < y % 10) := by
  simp only [sub8H, toNat_bcd hx, toNat_bcd hy, packed, bit_false, decide_eq_decide]
  omega

theorem sub8C_bcd : sub8C (bcd x) (bcd y) false = decide (x < y) := by
  simp only [sub8C, toNat_bcd hx, toNat_bcd hy, packed, bit_false, decide_eq_decide]
  omega

theorem daaResult_sub_bcd :
    daaResult (sub8 (bcd x) (bcd y) false) true (sub8H (bcd x) (bcd y) false) (sub8C (bcd x) (bcd y) false) =
      bcd ((x + 100 - y) % 100) := by
  have hlt : (x + 100 - y) % 100 < 100 := Nat.mod_lt _ (by decide)
  have hpr := packed_le hlt
  have hdiff := packed_sub hx hy
  apply BitVec.eq_of_toNat_eq
  apply Int.ofNat_inj.mp
  rw [toNat_daaResult, toNat_daaOffset, daaLow, daaHigh, sub8H_bcd hx hy, sub8C_bcd hx hy, toNat_sub8, toNat_bcd hx,
    toNat_bcd hy, toNat_bcd hlt]
  simp only [bit_false, if_true, decide_eq_true_eq]
  split_ifs at hdiff ⊢ <;> omega

end

/-! ## A and the flags written -/

/-- An addition to A. -/
theorem exec_of_addToA {i : Instr} {s : State} {v : Byte} {cin : Bool} {k : Nat} (h : exec i s = done k (addToA s v cin)) :
    ∃ t, exec i s = .next t ∧ t.a.toNat = (s.a.toNat + v.toNat + bit cin) % 256 ∧
      t.HasFlags (t.a == 0) false (add8H s.a v cin) (add8C s.a v cin) ∧
      t = { s with a := t.a, f := t.f, cycles := s.cycles + k } :=
  ⟨_, h, toNat_add8 s.a v cin, State.hasFlags_of_f rfl, rfl⟩

/-- Settles O25: each form adds its operand to A, the carry-in being C or 0. -/
theorem addAndAdc : Obligations.AddAndAdc := by
  rintro adc r n s cin rfl
  simp only [List.forall_mem_cons]
  refine ⟨?register, ?memory, ?immediate, List.forall_mem_nil _⟩
  all_goals cases adc <;> exact ⟨decodes_of_encode rfl rfl rfl, exec_of_addToA rfl⟩

/-- A subtraction from A, or a comparison, which leaves A. -/
theorem exec_of_subtraction {i : Instr} {s : State} {v : Byte} {cin : Bool} {k : Nat} (cp : Prop) [Decidable cp]
    (h : exec i s = done k (if cp then compareA s v cin else subFromA s v cin)) :
    ∃ (t : State) (result : Byte), exec i s = .next t ∧
      (result.toNat : Int) = ((s.a.toNat : Int) - v.toNat - bit cin) % 256 ∧ t.a = (if cp then s.a else result) ∧
      t.HasFlags (result == 0) true (sub8H s.a v cin) (sub8C s.a v cin) ∧
      t = { s with a := t.a, f := t.f, cycles := s.cycles + k } := by
  refine ⟨_, sub8 s.a v cin, h, toNat_sub8 s.a v cin, ?_⟩
  split <;> exact ⟨rfl, State.hasFlags_of_f rfl, rfl⟩

/-- Settles O26: each form takes its operand and its borrow-in, C or 0, from A. -/
theorem subSbcAndCp : Obligations.SubSbcAndCp := by
  rintro op r n s cin rfl
  simp only [List.forall_mem_cons]
  refine ⟨?register, ?memory, ?immediate, List.forall_mem_nil _⟩
  all_goals fin_cases op <;> exact ⟨decodes_of_encode rfl rfl rfl, exec_of_subtraction _ rfl⟩

/-- The operation of A with a byte, bit by bit. -/
theorem exec_of_logic {i : Instr} {s : State} {v : Byte} {k : Nat} (op : Fin 3)
    (h : exec i s = done k (![andA s v, xorA s v, orA s v] op)) :
    ∃ t, exec i s = .next t ∧
      (∀ b, t.a.getLsbD b = ![s.a.getLsbD b && v.getLsbD b, s.a.getLsbD b ^^ v.getLsbD b,
        s.a.getLsbD b || v.getLsbD b] op) ∧
      t.HasFlags (t.a == 0) false (op == 0) false ∧ t = { s with a := t.a, f := t.f, cycles := s.cycles + k } := by
  refine ⟨_, h, ?_⟩
  match op with
  | 0 => exact ⟨fun _ => BitVec.getLsbD_and, State.hasFlags_of_f rfl, rfl⟩
  | 1 => exact ⟨fun _ => BitVec.getLsbD_xor, State.hasFlags_of_f rfl, rfl⟩
  | 2 => exact ⟨fun _ => BitVec.getLsbD_or, State.hasFlags_of_f rfl, rfl⟩

/-- Settles O27: each form is one of the three operations with its operand. -/
theorem logicalOperations : Obligations.LogicalOperations := by
  intro op r n s
  simp only [List.forall_mem_cons]
  refine ⟨?register, ?memory, ?immediate, List.forall_mem_nil _⟩
  all_goals fin_cases op <;> exact ⟨decodes_of_encode rfl rfl rfl, exec_of_logic _ rfl⟩

/-! ## INC and DEC (R176 to R179) -/

theorem cFlag_setReg8 (s : State) (r : Reg8) (v : Byte) : cFlag (setReg8 s r v) = cFlag s := by
  rw [cFlag, setReg8_f, cFlag]

theorem cFlag_busWrite (s : State) (a : Word) (v : Byte) : cFlag (busWrite s a v) = cFlag s := by
  rw [cFlag, busWrite_f, cFlag]

/-- An instruction that writes a register and the flags. -/
theorem exec_of_setReg8_setFlags {i : Instr} {s : State} {r : Reg8} {v : Byte} {z n hf c : Bool} {k : Nat}
    (h : exec i s = done k (setFlags (setReg8 s r v) z n hf c)) :
    ∃ t, exec i s = .next t ∧ reg8 t r = v ∧ (∀ q, q ≠ r → reg8 t q = reg8 s q) ∧ t.HasFlags z n hf c ∧
      { s with f := t.f }.OnlyReg8 t k := by
  refine ⟨_, h, ?_, fun q hq => ?_, State.hasFlags_of_f rfl, ?_⟩
  · cases r <;> rfl
  · refine Eq.trans ?_ ((reg8_setReg8 s q r v).trans (if_neg hq))
    cases q <;> rfl
  · cases r <;> rfl

/-- An instruction that stores a byte and writes the flags. -/
theorem exec_of_busWrite_setFlags {i : Instr} {s : State} {a : Word} {v : Byte} {z n hf c : Bool} {k : Nat}
    (h : exec i s = done k (setFlags (busWrite s a v) z n hf c)) :
    ∃ t, exec i s = .next t ∧ t.HasFlags z n hf c ∧ t = { busWrite s a v with f := t.f, cycles := s.cycles + k } ∧
      { s with f := t.f }.SameCpu t ∧ (∀ j : Word, storeReaches a j = false → raw t j = raw s j) ∧
      (plainStore a = true → raw t a = v) := by
  refine ⟨_, h.trans (done_of_cycles (u := setFlags _ z n hf c) (busWrite_cycles s a v) k), State.hasFlags_of_f rfl, rfl,
    ?_, fun j hj => raw_busWrite_frame v hj, fun hp => raw_busWrite_plain_self s hp v⟩
  obtain ⟨ha, -, hrest⟩ := State.sameCpu_busWrite s a v
  exact ⟨ha, rfl, hrest⟩

/-- `INC r` and `DEC r`, the flag C written with its value before the instruction. -/
theorem exec_incDec_register (dec : Bool) (r : Reg8) (s : State) :
    exec (if dec then .decR r else .incR r) s =
      done 4 (setFlags (setReg8 s r (if dec then reg8 s r - 1 else reg8 s r + 1))
        ((if dec then reg8 s r - 1 else reg8 s r + 1) == 0) dec ((reg8 s r).toNat % 16 == (if dec then 0 else 15))
        (cFlag s)) := by
  cases dec <;> exact congrArg (fun c => done 4 (setFlags _ _ _ _ c)) (cFlag_setReg8 s r _)

theorem exec_incDec_hl (dec : Bool) (s : State) :
    exec (if dec then .decHl else .incHl) s =
      done 12 (setFlags (busWrite s (hl s) (if dec then readHl s - 1 else readHl s + 1))
        ((if dec then readHl s - 1 else readHl s + 1) == 0) dec ((readHl s).toNat % 16 == (if dec then 0 else 15))
        (cFlag s)) := by
  cases dec <;> exact congrArg (fun c => done 12 (setFlags _ _ _ _ c)) (cFlag_busWrite s (hl s) _)

/-- Settles O28: the value one up or down is written back, to the register or through the bus. -/
theorem incDecBytes : Obligations.IncDecBytes := by
  intro dec r s result half
  refine ⟨⟨?register, exec_of_setReg8_setFlags (exec_incDec_register dec r s)⟩, ?hl, ?memory⟩
  case register | hl => cases dec <;> exact decodes_of_encode rfl rfl rfl
  case memory =>
    obtain ⟨t, ht⟩ := exec_of_busWrite_setFlags (exec_incDec_hl dec s)
    exact ⟨t, _, rfl, ht⟩

/-! ## DAA (R180) -/

/-- Settles O29: the correction is added or taken away modulo 256. -/
theorem daaAdjusts : Obligations.DaaAdjusts := by
  intro s
  refine ⟨decodes_of_encode rfl rfl rfl, _, rfl, ?result, ?flags, rfl⟩
  case result =>
    refine (toNat_daaResult s.a (nFlag s) (hFlag s) (cFlag s)).trans ?_
    rw [toNat_daaOffset]
    push_cast
    rfl
  case flags =>
    exact State.hasFlags_of_f (congrArg (flagsByte _ _ _) (daaHigh_eq_or s.a (nFlag s) (cFlag s)))

theorem daaA_of_hasFlags {s : State} {z n h c : Bool} (hf : s.HasFlags z n h c) :
    cFlag (daaA s) = daaHigh s.a n c ∧ (daaA s).a = daaResult s.a n h c := by
  obtain ⟨-, rfl, rfl, rfl, -⟩ := hf
  exact ⟨cFlag_setFlags _ _ _ _ _, rfl⟩

/-- `DAA` after an instruction that writes A and the flags. -/
theorem exec_daa_after {i : Instr} {s : State} {v : Byte} {z n hf c : Bool} {k : Nat}
    (h : exec i s = done k (setFlags { s with a := v } z n hf c)) :
    ∃ u t, exec i s = .next u ∧ exec .daa u = .next t ∧ cFlag t = daaHigh v n c ∧ t.a = daaResult v n hf c :=
  ⟨_, _, h, rfl, daaA_of_hasFlags (State.hasFlags_of_f rfl)⟩

/-- Settles O30: the corrections of `DAA` are those that packed decimal numbers need. -/
theorem daaMakesDecimalSums : Obligations.DaaMakesDecimalSums := by
  intro x y r s hx hy ha hr
  change s.a = bcd x at ha
  change reg8 s r = bcd y at hr
  rw [← bcd_mod_100, ← bcd_mod_100]
  refine ⟨?sum, ?difference⟩
  case sum =>
    have h : exec (.addAR r) s = done 4 (addToA s (bcd y) false) := hr ▸ rfl
    obtain ⟨u, t, hu, ht, hc, hv⟩ := exec_daa_after h
    rw [ha] at hc hv
    exact ⟨u, t, hu, ht, hc.trans (daaHigh_add_bcd hx hy), hv.trans (daaResult_add_bcd hx hy)⟩
  case difference =>
    have h : exec (.subAR r) s = done 4 (subFromA s (bcd y) false) := hr ▸ rfl
    obtain ⟨u, t, hu, ht, hc, hv⟩ := exec_daa_after h
    rw [ha] at hc hv
    exact ⟨u, t, hu, ht, hc.trans (sub8C_bcd hx hy), hv.trans (daaResult_sub_bcd hx hy)⟩

/-! ## CPL, SCF and CCF (R181 to R183) -/

/-- Settles O31: the flags written are the stated ones, and `XOR` with 0xFF inverts the eight bits of A. -/
theorem complementAndCarryFlags : Obligations.ComplementAndCarryFlags := by
  refine fun s => ⟨⟨decodes_of_encode rfl rfl rfl, _, rfl, fun b hb => ?_, State.hasFlags_of_f rfl, rfl⟩,
    ⟨decodes_of_encode rfl rfl rfl, _, rfl, State.hasFlags_of_f rfl, rfl⟩,
    decodes_of_encode rfl rfl rfl, _, rfl, State.hasFlags_of_f rfl, rfl⟩
  have hnot : s.a ^^^ 0xFF = ~~~s.a := BitVec.xor_allOnes
  change (s.a ^^^ 0xFF).getLsbD b = _
  rw [hnot, BitVec.getLsbD_not, decide_eq_true hb, Bool.true_and]

end Sys2Proof.Machine
end

section
/-! The 16-bit arithmetic (43_alu16 R190 to R194; 41_load16_stack R133): the sum of a word and a signed word, HL and the flags
written together, and the statements, in which `INC rr` and `DEC rr` write one pair as the 16-bit loads do. -/

namespace Sys2Proof.Machine

/-! ## Sums of words (R190, R192, R193) -/

/-- A sum of words, its second term read as signed: a signed offset is added modulo 65536. -/
theorem toNat_add_signed (x y : Word) : ((x + y).toNat : Int) = ((x.toNat : Int) + y.toInt) % 65536 := by
  rw [BitVec.toInt_eq_toNat_cond, BitVec.toNat_add]
  split <;> omega

theorem toNat_spAdd (sp : Word) (e : Byte) : ((spAdd sp e).toNat : Int) = ((sp.toNat : Int) + e.toInt) % 65536 := by
  rw [spAdd, toNat_add_signed, sext8, BitVec.toInt_signExtend_of_le (by decide)]

/-! ## HL and the flags written (R133, R191) -/

/-- An instruction that writes HL and the flags. -/
theorem exec_of_setHl_setFlags {i : Instr} {s : State} {w : Word} {z n hf c : Bool} {k : Nat}
    (h : exec i s = done k (setHl (setFlags s z n hf c) w)) :
    ∃ t, exec i s = .next t ∧ hl t = w ∧ t.HasFlags z n hf c ∧
      t = { s with h := t.h, l := t.l, f := t.f, cycles := s.cycles + k } :=
  ⟨_, h, word_hi_lo w, State.hasFlags_of_f rfl, rfl⟩

/-- Settles O32: HL and the flags are written, the sum being one of unsigned words. -/
theorem addHlPairs : Obligations.AddHlPairs := by
  intro p s
  obtain ⟨t, ht, hsum, hflags, hframe⟩ := exec_of_setHl_setFlags (i := .addHlRr p) (s := s) rfl
  exact ⟨decodes_of_encode rfl rfl rfl, t, ht, hsum ▸ BitVec.toNat_add _ _, hflags, hframe⟩

/-! ## A pair one up or down (R192, R193) -/

theorem exec_incDec_pair (dec : Bool) (p : R16) (s : State) :
    exec (if dec then .decRr p else .incRr p) s = done 8 (setR16 s p (r16 s p + (if dec then -1 else 1))) := by
  cases dec
  case false => rfl
  case true => exact congrArg (fun w => done 8 (setR16 s p w)) (BitVec.sub_eq_add_neg _ _)

/-- Settles O33: one pair is written, with its value plus the signed word 1 or -1. -/
theorem incDecPairs : Obligations.IncDecPairs := by
  intro dec p s
  obtain ⟨t, ht, hpair, hothers, hframe⟩ := exec_of_setR16 (exec_incDec_pair dec p s)
  refine ⟨?decodes, t, ht, ?value, hothers, hframe⟩
  case decodes => cases dec <;> exact decodes_of_encode rfl rfl rfl
  case value =>
    rw [hpair, toNat_add_signed]
    cases dec <;> rfl

/-! ## SP and a signed offset (R133, R190, R194) -/

/-- Settles O34: both forms write the same sum and the same flags, to SP and to HL. -/
theorem stackPointerOffsets : Obligations.StackPointerOffsets := by
  intro e s half carry
  refine ⟨⟨decodes_of_encode rfl rfl rfl, ?addSp⟩, decodes_of_encode rfl rfl rfl, ?ldHl⟩
  case addSp => exact ⟨_, rfl, toNat_spAdd s.sp e, State.hasFlags_of_f rfl, rfl⟩
  case ldHl =>
    obtain ⟨t, ht, hsum, hflags, hframe⟩ := exec_of_setHl_setFlags (i := .ldHlSpS8 e) (s := s) rfl
    exact ⟨t, ht, hsum ▸ toNat_spAdd s.sp e, hflags, hframe⟩

end Sys2Proof.Machine
end

section
/-! The rotates, the shifts, SWAP and the bit instructions (44_rotate_shift_bit R200 to R226). First the results bit by bit: a
one-bit rotate or shift is `rl` or `rr` with the bit that it takes in. Then the operations as writes of a register or of the
byte at HL, and the statements from them. -/

namespace Sys2Proof.Machine

/-! ## One place up or down (R204) -/

theorem getLsbD_rl (v : Byte) (cin : Bool) {b : Nat} (hb : b < 8) :
    (rl v cin).1.getLsbD b = if b = 0 then cin else v.getLsbD (b - 1) := by
  have hin : (if cin then 0x01 else 0 : Byte).getLsbD b = (cin && decide (b = 0)) := by
    cases cin <;> simp [BitVec.getLsbD_one]
  rw [rl, BitVec.getLsbD_or, BitVec.getLsbD_shiftLeft, hin]
  cases b <;> simp [hb, -BitVec.getLsbD_eq_getElem]

theorem getLsbD_rr (v : Byte) (cin : Bool) {b : Nat} (hb : b < 8) :
    (rr v cin).1.getLsbD b = if b = 7 then cin else v.getLsbD (b + 1) := by
  have hin : (if cin then 0x80 else 0 : Byte).getLsbD b = (cin && decide (b = 7)) := by
    cases cin <;> interval_cases b <;> rfl
  rw [rr, BitVec.getLsbD_or, BitVec.getLsbD_ushiftRight, hin, Nat.add_comm]
  split_ifs with h <;> simp [h]

theorem getLsbD_of_eq_rl {out : Byte × Bool} {v : Byte} {cin : Bool} (h : out = rl v cin) {b : Nat} (hb : b < 8) :
    out.1.getLsbD b = if b = 0 then cin else v.getLsbD (b - 1) :=
  h ▸ getLsbD_rl v cin hb

theorem getLsbD_of_eq_rr {out : Byte × Bool} {v : Byte} {cin : Bool} (h : out = rr v cin) {b : Nat} (hb : b < 8) :
    out.1.getLsbD b = if b = 7 then cin else v.getLsbD (b + 1) :=
  h ▸ getLsbD_rr v cin hb

/-- `rlc` takes in the bit that leaves. -/
theorem rlc_eq_rl (v : Byte) : rlc v = rl v (v.getLsbD 7) := by
  have h : v >>> 7 = if v.getLsbD 7 then 0x01 else 0 := by revert v; decide
  rw [rlc, rl, h]

/-- `rrc` takes in the bit that leaves. -/
theorem rrc_eq_rr (v : Byte) : rrc v = rr v (v.getLsbD 0) := by
  have h : v <<< 7 = if v.getLsbD 0 then 0x80 else 0 := by revert v; decide
  rw [rrc, rr, h]

theorem sla_eq_rl (v : Byte) : sla v = rl v false := by
  simp [sla, rl]

/-- `sra` keeps the sign. -/
theorem sra_eq_rr (v : Byte) : sra v = rr v (v.getLsbD 7) := by
  have h : v &&& 0x80 = if v.getLsbD 7 then 0x80 else 0 := by revert v; decide
  rw [sra, rr, h]

theorem srl_eq_rr (v : Byte) : srl v = rr v false := by
  simp [srl, rr]

theorem getLsbD_swap (v : Byte) {b : Nat} (hb : b < 8) : (swap v).1.getLsbD b = v.getLsbD ((b + 4) % 8) := by
  interval_cases b <;> simp [swap]

/-! ## The accumulator rotates (R200 to R203) -/

theorem exec_rotateLeft (circular : Bool) (s : State) :
    exec (if circular then .rlca else .rla) s =
      done 4 (rotateA s (rl s.a (if circular then s.a.getLsbD 7 else cFlag s))) := by
  cases circular
  case false => rfl
  case true => exact congrArg (fun out => done 4 (rotateA s out)) (rlc_eq_rl s.a)

theorem exec_rotateRight (circular : Bool) (s : State) :
    exec (if circular then .rrca else .rra) s =
      done 4 (rotateA s (rr s.a (if circular then s.a.getLsbD 0 else cFlag s))) := by
  cases circular
  case false => rfl
  case true => exact congrArg (fun out => done 4 (rotateA s out)) (rrc_eq_rr s.a)

/-- Settles O35: the circular rotates are the ones through carry with the bit that leaves as their carry-in. -/
theorem accumulatorRotates : Obligations.AccumulatorRotates := by
  intro circular s
  refine ⟨⟨?leftBytes, _, exec_rotateLeft circular s, fun b hb => ?leftBits, ?leftIn, State.hasFlags_of_f rfl, rfl⟩,
    ?rightBytes, _, exec_rotateRight circular s, fun b hb => ?rightBits, ?rightIn, State.hasFlags_of_f rfl, rfl⟩
  case leftBytes | rightBytes => cases circular <;> exact decodes_of_encode rfl rfl rfl
  case leftBits => exact getLsbD_rl s.a _ (Nat.succ_lt_succ hb)
  case leftIn => exact getLsbD_rl s.a _ (by decide)
  case rightBits => exact (getLsbD_rr s.a _ (hb.trans (by decide))).trans (if_neg hb.ne)
  case rightIn => exact getLsbD_rr s.a _ (by decide)

/-! ## The CB page's rotates and shifts (R205 to R220) -/

/-- The operation that bits 5..3 of the second byte select (R87). -/
def cbShift (op : Fin 8) (v : Byte) (cin : Bool) : Byte × Bool :=
  ![rlc v, rrc v, rl v cin, rr v cin, sla v, sra v, swap v, srl v] op

theorem getLsbD_cbShift (op : Fin 8) (v : Byte) (cin : Bool) {b : Nat} (hb : b < 8) :
    (cbShift op v cin).1.getLsbD b = ![
      if b = 0 then v.getLsbD 7 else v.getLsbD (b - 1), if b = 7 then v.getLsbD 0 else v.getLsbD (b + 1),
      if b = 0 then cin else v.getLsbD (b - 1), if b = 7 then cin else v.getLsbD (b + 1),
      if b = 0 then false else v.getLsbD (b - 1), if b = 7 then v.getLsbD 7 else v.getLsbD (b + 1),
      v.getLsbD ((b + 4) % 8), if b = 7 then false else v.getLsbD (b + 1)] op := by
  match op with
  | 0 => exact getLsbD_of_eq_rl (rlc_eq_rl v) hb
  | 1 => exact getLsbD_of_eq_rr (rrc_eq_rr v) hb
  | 2 => exact getLsbD_rl v cin hb
  | 3 => exact getLsbD_rr v cin hb
  | 4 => exact getLsbD_of_eq_rl (sla_eq_rl v) hb
  | 5 => exact getLsbD_of_eq_rr (sra_eq_rr v) hb
  | 6 => exact getLsbD_swap v hb
  | 7 => exact getLsbD_of_eq_rr (srl_eq_rr v) hb

theorem cbShift_carry (op : Fin 8) (v : Byte) (cin : Bool) :
    (cbShift op v cin).2 = ![v.getLsbD 7, v.getLsbD 0, v.getLsbD 7, v.getLsbD 0, v.getLsbD 7, v.getLsbD 0, false,
      v.getLsbD 0] op := by
  fin_cases op <;> rfl

theorem exec_cbShift_register (op : Fin 8) (r : Reg8) (s : State) :
    exec (![.rlcR r, .rrcR r, .rlR r, .rrR r, .slaR r, .sraR r, .swapR r, .srlR r] op) s =
      done 8 (shiftFlags (setReg8 s r (cbShift op (reg8 s r) (cFlag s)).1) (cbShift op (reg8 s r) (cFlag s))) := by
  fin_cases op <;> rfl

theorem exec_cbShift_hl (op : Fin 8) (s : State) :
    exec (![.rlcHl, .rrcHl, .rlHl, .rrHl, .slaHl, .sraHl, .swapHl, .srlHl] op) s =
      done 16 (shiftFlags (writeHl s (cbShift op (readHl s) (cFlag s)).1) (cbShift op (readHl s) (cFlag s))) := by
  fin_cases op <;> rfl

/-- Settles O36: the operation's result is written to the register, and its flags. -/
theorem cbShiftsOnRegisters : Obligations.CbShiftsOnRegisters := by
  intro op r s carryOut bitOut i
  obtain ⟨t, ht, hr, hothers, hflags, hframe⟩ := exec_of_setReg8_setFlags (exec_cbShift_register op r s)
  refine ⟨?bytes, t, ht, fun b hb => ?bits, hothers, ?flags, hframe⟩
  case bytes => fin_cases op <;> exact decodes_of_encode rfl rfl rfl
  case bits => exact hr ▸ getLsbD_cbShift op (reg8 s r) (cFlag s) hb
  case flags => rwa [cbShift_carry, ← hr] at hflags

/-- Settles O37: the operation's result is stored at HL, and its flags are written. -/
theorem cbShiftsOnMemory : Obligations.CbShiftsOnMemory := by
  intro op s carryOut bitOut i
  obtain ⟨t, ht, hflags, hstore⟩ := exec_of_busWrite_setFlags (exec_cbShift_hl op s)
  refine ⟨?bytes, t, _, _, rfl, ht, fun _ hb => getLsbD_cbShift op (readHl s) (cFlag s) hb, ?flags, hstore⟩
  case bytes => fin_cases op <;> exact decodes_of_encode rfl rfl rfl
  case flags => rwa [cbShift_carry] at hflags

/-! ## BIT, RES and SET (R221 to R226) -/

/-- Settles O38: both forms write the flags of one bit of their operand. -/
theorem bitTests : Obligations.BitTests := by
  intro b r s
  simp only [List.forall_mem_cons]
  refine ⟨?register, ?memory, List.forall_mem_nil _⟩ <;>
    exact ⟨decodes_of_encode rfl rfl rfl, _, rfl, State.hasFlags_of_f rfl, rfl⟩

theorem getLsbD_bitMask (b : Fin 8) (k : Nat) : (bitMask b).getLsbD k = decide (k = b.val) := by
  have h : (bitMask b).getLsbD k = (decide (b.val < 8) && decide (b.val = k)) := BitVec.getLsbD_twoPow b.val k
  rw [h, decide_eq_true b.isLt, Bool.true_and]
  exact decide_eq_decide.mpr eq_comm

/-- `RES` or `SET` on a byte (R223, R225). -/
def writeBit (set : Bool) (b : Fin 8) (v : Byte) : Byte := if set then setBit b v else resBit b v

theorem getLsbD_writeBit (set : Bool) (b : Fin 8) (v : Byte) {k : Nat} (hk : k < 8) :
    (writeBit set b v).getLsbD k = if k = b.val then set else v.getLsbD k := by
  cases set
  case false =>
    simp only [writeBit, resBit, Bool.false_eq_true, if_false, BitVec.getLsbD_and, BitVec.getLsbD_not, getLsbD_bitMask]
    split_ifs with h <;> simp [h, hk, -BitVec.getLsbD_eq_getElem]
  case true =>
    simp only [writeBit, setBit, if_true, BitVec.getLsbD_or, getLsbD_bitMask]
    split_ifs with h <;> simp [h]

theorem exec_writeBit_register (set : Bool) (b : Fin 8) (r : Reg8) (s : State) :
    exec (if set then .setBR b r else .resBR b r) s = done 8 (setReg8 s r (writeBit set b (reg8 s r))) := by
  cases set <;> rfl

theorem exec_writeBit_hl (set : Bool) (b : Fin 8) (s : State) :
    exec (if set then .setBHl b else .resBHl b) s = done 16 (busWrite s (hl s) (writeBit set b (readHl s))) := by
  cases set <;> rfl

/-- Settles O39: the byte with one bit written goes back to the register or through the bus. -/
theorem bitResetAndSet : Obligations.BitResetAndSet := by
  intro set b r s
  obtain ⟨t, ht, hr, hothers, hframe⟩ := exec_of_setReg8 (exec_writeBit_register set b r s)
  obtain ⟨u, hu, hstore, hcpu, hreach, hplain⟩ := exec_of_busWrite (exec_writeBit_hl set b s)
  refine ⟨⟨?registerBytes, t, ht, fun k hk => hr ▸ getLsbD_writeBit set b _ hk, hothers, hframe⟩,
    ?hlBytes, u, _, hu, fun k hk => getLsbD_writeBit set b _ hk, hstore, hcpu, hreach, fun hp => (hplain hp).1⟩
  case registerBytes | hlBytes => cases set <;> exact decodes_of_encode rfl rfl rfl

end Sys2Proof.Machine
end

section
/-! Jumps, calls, returns and RST (45_control_flow R230 to R240). First the two kinds of operation: an operation under a
condition, a PC pushed with a jump. The statements are their instances; each spells its condition out by the flags, as the
model's `cond` does. -/

namespace Sys2Proof.Machine

/-! ## An operation under a condition (R85, R231, R234, R236, R238) -/

/-- The operation when the condition holds, otherwise only the T-cycles of the form not taken. -/
theorem ite_done (taken : Bool) (k m : Nat) (u s : State) :
    (if taken then done k u else done m s) =
      .next (if taken then { u with cycles := u.cycles + k } else { s with cycles := s.cycles + m }) :=
  (apply_ite Host.Outcome.next (taken = true) _ _).symm

/-! ## Jumps (R230 to R234) -/

/-- A signed byte added to an address: the sum over integers, modulo 65536. -/
theorem add_sext8 (pc : Word) (e : Byte) : pc + sext8 e = BitVec.ofInt 16 ((pc.toNat : Int) + e.toInt) := by
  rw [BitVec.ofInt_add, BitVec.ofInt_natCast, BitVec.ofNat_toNat, BitVec.setWidth_eq]
  rfl

/-- Settles O40: each form sets PC, the relative ones to the integer sum modulo 65536. -/
theorem jumps : Obligations.Jumps := by
  intro cc n e s holds relative
  have hrel : s.pc + sext8 e = relative := add_sext8 s.pc e
  refine ⟨⟨decodes_of_encode rfl rfl rfl, rfl⟩, ⟨decodes_of_encode rfl rfl rfl, rfl⟩,
    ⟨decodes_of_encode rfl rfl rfl, ?jr⟩, ⟨decodes_of_encode rfl rfl rfl, ?jpCc⟩, decodes_of_encode rfl rfl rfl, ?jrCc⟩
  case jr => exact hrel ▸ rfl
  case jpCc => exact ite_done holds 16 12 { s with pc := n } s
  case jrCc => exact hrel ▸ ite_done holds 12 8 { s with pc := s.pc + sext8 e } s

/-! ## Calls and RST (R235, R236, R240) -/

theorem State.SameCpu.setPc {s t : State} (h : s.SameCpu t) (w : Word) : { s with pc := w }.SameCpu { t with pc := w } := by
  obtain ⟨ha, hf, hb, hc, hd, he, hh, hl, hsp, -, hrest⟩ := h
  exact ⟨ha, hf, hb, hc, hd, he, hh, hl, hsp, rfl, hrest⟩

/-- An instruction that pushes PC and jumps: the rules of `push16`, and the new PC. -/
theorem exec_of_push16_jump {i : Instr} {s : State} {w : Word} {k : Nat}
    (h : exec i s = done k { push16 s s.pc with pc := w }) :
    ∃ t, exec i s = .next t ∧
      t = { busWrite (busWrite s (s.sp - 1) (hiByte s.pc)) (s.sp - 2) (loByte s.pc) with
            sp := s.sp - 2, pc := w, cycles := s.cycles + k } ∧
      { s with sp := s.sp - 2, pc := w }.SameCpu t ∧
      (∀ a : Word, storeReaches (s.sp - 1) a = false → storeReaches (s.sp - 2) a = false → raw t a = raw s a) ∧
      (plainStore (s.sp - 1) = true → plainStore (s.sp - 2) = true →
        raw t (s.sp - 1) = hiByte s.pc ∧ raw t (s.sp - 2) = loByte s.pc) :=
  ⟨_, h.trans (done_of_cycles (u := { push16 s s.pc with pc := w }) (push16_cycles s s.pc) k), rfl,
    (State.sameCpu_push16 s s.pc).setPc w, fun _ => raw_push16_frame s.pc, raw_push16_plain s s.pc⟩

/-- A taken `CALL cc` has the meaning of `CALL`. -/
theorem exec_call_taken (cc : Cond) (n : Word) (s : State) :
    exec (if cond s cc then .callCcN16 cc n else .callN16 n) s = done 24 { push16 s s.pc with pc := n } := by
  split
  case isTrue h => exact if_pos h
  case isFalse => rfl

theorem exec_rst (k : Fin 8) (s : State) :
    exec (.rst k) s = done 16 { push16 s s.pc with pc := BitVec.ofNat 16 (8 * k.val) } := by
  rw [Nat.mul_comm]
  rfl

/-- Settles O41: the three forms push PC and jump; a `CALL cc` not taken only costs its T-cycles. -/
theorem callsAndRst : Obligations.CallsAndRst := by
  intro cc n k s holds
  refine ⟨decodes_of_encode rfl rfl rfl, decodes_of_encode rfl rfl rfl, decodes_of_encode rfl rfl rfl, ?notTaken, ?pushed⟩
  case notTaken => exact fun h => if_neg (Bool.eq_false_iff.mp h)
  case pushed =>
    simp only [List.forall_mem_cons]
    refine ⟨?call, ?callCc, ?rst, List.forall_mem_nil _⟩
    case call => exact exec_of_push16_jump rfl
    case callCc => exact exec_of_push16_jump (exec_call_taken cc n s)
    case rst => exact exec_of_push16_jump (exec_rst k s)

/-! ## Returns (R237 to R239) -/

/-- Settles O42: each form pops PC; the word popped is `popValue`, read before SP moves. -/
theorem returns : Obligations.Returns := by
  intro cc s holds target
  refine ⟨⟨decodes_of_encode rfl rfl rfl, rfl⟩, ⟨decodes_of_encode rfl rfl rfl, ?retCc⟩, decodes_of_encode rfl rfl rfl, rfl⟩
  case retCc => exact ite_done holds 20 8 { popStack s with pc := popValue s } s

end Sys2Proof.Machine
end

section
/-! NOP, HALT, STOP, DI, EI, the CB prefix and the illegal opcodes (46_system R250 to R256). First when no request is pending,
then the countdown of `EI`, then the groups of the CB page, whose operations the section on rotates, shifts and bits gives. -/

namespace Sys2Proof.Machine

/-! ## HALT (R251) -/

/-- Nothing is pending when no source is both enabled and requested (R312). -/
theorem pending_eq_zero_iff (s : State) : pending s = 0 ↔
    ∀ i, i < 5 → (raw s 0xFFFF).getLsbD i = true → (raw s 0xFF0F).getLsbD i = false := by
  constructor
  case mp =>
    intro h i hi he
    have hb : (pending s).getLsbD i = false := h ▸ BitVec.getLsbD_zero
    rwa [pending_getLsbD, decide_eq_true hi, he, Bool.true_and, Bool.true_and] at hb
  case mpr =>
    intro h
    refine BitVec.eq_of_getLsbD_eq fun i _ => Eq.trans ?_ BitVec.getLsbD_zero.symm
    rw [pending_getLsbD, Bool.and_assoc, Bool.and_eq_false_imp, Bool.and_eq_false_imp]
    exact fun hi => h i (of_decide_eq_true hi)

/-- Settles O43: with IME clear, the case is the one that `pending` decides. -/
theorem haltHasThreeCases : Obligations.HaltHasThreeCases := by
  refine ⟨decodes_of_encode rfl rfl rfl, fun s => ⟨?enabled, ?bug, ?sleeps⟩⟩
  case enabled => exact fun h => if_pos h
  case bug =>
    rintro h ⟨i, hi, he, hr⟩
    have hp : pending s ≠ 0 := fun h0 => Bool.false_ne_true (((pending_eq_zero_iff s).mp h0 i hi he).symm.trans hr)
    exact (if_neg (Bool.eq_false_iff.mp h)).trans (if_pos hp)
  case sleeps =>
    intro h hn
    exact (if_neg (Bool.eq_false_iff.mp h)).trans (if_neg (not_not_intro ((pending_eq_zero_iff s).mpr hn)))

/-! ## STOP (R252) -/

/-- Settles O44: `resetDiv` stores one byte, above the echo. -/
theorem stopResetsDivAndHalts : Obligations.StopResetsDivAndHalts := fun _ s =>
  ⟨decodes_of_encode rfl rfl rfl, _, rfl, rfl, raw_rawWrite_self s 0xFF04 0, fun _ => raw_rawWrite_io_frame s 0 (by decide)⟩

/-! ## DI and EI (R253, R254) -/

theorem promoteIme_of_countdown {s : State} {n : Nat} (h : s.cfg.eiDelay = true) (hn : s.imeDelay = n + 1) :
    promoteIme s = { s with imeDelay := n, ime := s.ime || n == 0 } := by
  have hcond : (s.cfg.eiDelay && decide (0 < s.imeDelay)) = true := by
    rw [h, hn]
    rfl
  rw [promoteIme, if_pos hcond, hn]
  cases n <;> rfl

theorem promoteIme_of_no_countdown {s : State} (h : s.cfg.eiDelay = false ∨ s.imeDelay = 0) : promoteIme s = s := by
  rw [promoteIme, if_neg]
  rcases h with h | h <;> simp [h]

/-- Settles O45: the branches of `EI`, and the countdown. -/
theorem interruptMasterEnable : Obligations.InterruptMasterEnable := by
  refine ⟨decodes_of_encode rfl rfl rfl, decodes_of_encode rfl rfl rfl, fun s => ⟨rfl, ?atOnce, ?starts, ?nothing,
    fun _ => promoteIme_of_countdown, promoteIme_of_no_countdown⟩⟩
  case atOnce => exact fun h => if_neg (Bool.eq_false_iff.mp h)
  case starts =>
    intro h hi hd
    exact (if_pos h).trans (if_pos (by rw [hi, hd]; rfl))
  case nothing =>
    intro h hor
    refine (if_pos h).trans (if_neg ?_)
    rcases hor with hi | hd
    · simp [hi]
    · simp [hd]

/-! ## The CB page (R87, R255) -/

/-- The groups of the CB page: a rotate or a shift, `BIT`, or `RES` and `SET`, each on a register or on the byte at HL (R87). -/
theorem decodeCb_cases (op2 : Byte) :
    (∃ op r, decodeCb op2 = ![.rlcR r, .rrcR r, .rlR r, .rrR r, .slaR r, .sraR r, .swapR r, .srlR r] op) ∨
    (∃ op, decodeCb op2 = ![.rlcHl, .rrcHl, .rlHl, .rrHl, .slaHl, .sraHl, .swapHl, .srlHl] op) ∨
    (∃ b r, decodeCb op2 = .bitBR b r) ∨ (∃ b, decodeCb op2 = .bitBHl b) ∨
    (∃ (set : Bool) (b : Fin 8) (r : Reg8), decodeCb op2 = if set then .setBR b r else .resBR b r) ∨
    (∃ (set : Bool) (b : Fin 8), decodeCb op2 = if set then .setBHl b else .resBHl b) := by
  unfold decodeCb
  generalize fieldX op2 = x, fieldY op2 = y, reg8OfField (fieldZ op2) = operand
  match x, operand with
  | 0, some r => exact .inl ⟨y, r, by fin_cases y <;> rfl⟩
  | 0, none => exact .inr (.inl ⟨y, by fin_cases y <;> rfl⟩)
  | 1, some r => exact .inr (.inr (.inl ⟨y, r, rfl⟩))
  | 1, none => exact .inr (.inr (.inr (.inl ⟨y, rfl⟩)))
  | 2, some r => exact .inr (.inr (.inr (.inr (.inl ⟨false, y, r, rfl⟩))))
  | 2, none => exact .inr (.inr (.inr (.inr (.inr ⟨false, y, rfl⟩))))
  | 3, some r => exact .inr (.inr (.inr (.inr (.inl ⟨true, y, r, rfl⟩))))
  | 3, none => exact .inr (.inr (.inr (.inr (.inr ⟨true, y, rfl⟩))))

/-- The costs of the CB page, by its groups; each includes the prefix's 4 T-cycles (R255). -/
theorem exec_decodeCb (op2 : Byte) (s : State) :
    ∃ k u, exec (decodeCb op2) s = done k u ∧ u.cycles = s.cycles ∧ (k = 8 ∨ k = 12 ∨ k = 16) := by
  rcases decodeCb_cases op2 with ⟨op, r, h⟩ | ⟨op, h⟩ | ⟨b, r, h⟩ | ⟨b, h⟩ | ⟨set, b, r, h⟩ | ⟨set, b, h⟩ <;> rw [h]
  · exact ⟨8, _, exec_cbShift_register op r s, setReg8_cycles s r _, .inl rfl⟩
  · exact ⟨16, _, exec_cbShift_hl op s, busWrite_cycles s (hl s) _, .inr (.inr rfl)⟩
  · exact ⟨8, _, rfl, rfl, .inl rfl⟩
  · exact ⟨12, _, rfl, rfl, .inr (.inl rfl)⟩
  · exact ⟨8, _, exec_writeBit_register set b r s, setReg8_cycles s r _, .inl rfl⟩
  · exact ⟨16, _, exec_writeBit_hl set b s, busWrite_cycles s (hl s) _, .inr (.inr rfl)⟩

/-- The prefix runs the CB-page instruction (R255; log 11). -/
theorem exec_prefixCb (op2 : Byte) (s : State) : exec (.prefixCb op2) s = exec (decodeCb op2) s := by
  change execPrefixCb op2 s = _
  unfold execPrefixCb decodeCb
  generalize fieldX op2 = x, fieldY op2 = y, reg8OfField (fieldZ op2) = operand
  split <;> rfl

/-- Settles O46: `NOP` and an illegal opcode only count their T-cycles, and the CB page's costs are those of its groups. -/
theorem nopIllegalAndPrefix : Obligations.NopIllegalAndPrefix := by
  refine ⟨fun _ => ⟨decodes_of_encode rfl rfl rfl, rfl⟩, fun op _ h => ⟨decodes_illegal ?listed, rfl⟩, fun op2 s =>
    ⟨decodes_encode (.prefixCb op2) rfl, exec_prefixCb op2 s, ?cost⟩⟩
  case listed => exact List.contains_iff_mem.mpr h
  case cost =>
    obtain ⟨k, u, h, hu, hk⟩ := exec_decodeCb op2 s
    exact ⟨_, h.trans (done_of_cycles hu k), k, hk, rfl⟩

end Sys2Proof.Machine
end

section
/-! The step (60_exceptions R300 to R304, R330, R370): every instruction at the cost of its table row, and the parts of the
tick loop around it. First what each part leaves alone, then the statements. -/

namespace Sys2Proof.Machine

/-! ## The cost of an instruction (R89, R92, R330) -/

/-- The opcode table has a row with this mnemonic and these T-cycles, taken and not taken (R89, R92). -/
abbrev HasRow (mnemonic : String) (taken notTaken : Nat) : Prop :=
  ∃ row ∈ opcodeRows, row.mnemonic = mnemonic ∧ row.cycles = taken ∧ row.cyclesNotTaken = notTaken

/-- The T-cycles a row gives an instruction: the taken ones where its condition holds or it has none (R85, R92). -/
def rowCost (row : OpcodeRow) (i : Instr) (s : State) : Nat :=
  if (i.condition.map (cond s)).getD true = true then row.cycles else row.cyclesNotTaken

/-- The instruction answers a next state, at the T-cycles of a row of its mnemonic (R92, R330). -/
def CompletesAtRow (i : Instr) (s : State) : Prop :=
  ∃ row ∈ opcodeRows, row.mnemonic = i.mnemonic ∧ ∃ t, exec i s = .next t ∧ t.cycles = s.cycles + rowCost row i s

/-- An instruction without a condition; its row is looked up in the table. -/
theorem completesAtRow_of_done {i : Instr} {s u : State} {k : Nat} (h : exec i s = done k u) (hu : u.cycles = s.cycles)
    (hc : i.condition = none) (hrow : HasRow i.mnemonic k k := by dsimp only [Instr.mnemonic]; decide +kernel) :
    CompletesAtRow i s := by
  obtain ⟨row, hin, hm, hk, -⟩ := hrow
  exact ⟨row, hin, hm, _, h.trans (done_of_cycles hu k), by rw [rowCost, hc, hk]; rfl⟩

/-- A conditional instruction: one T-cycle count taken, one not taken. -/
theorem completesAtRow_of_cond {i : Instr} {s u : State} {cc : Cond} {k m : Nat}
    (h : exec i s = if cond s cc then done k u else done m s) (hu : u.cycles = s.cycles) (hc : i.condition = some cc)
    (hrow : HasRow i.mnemonic k m := by dsimp only [Instr.mnemonic]; decide +kernel) : CompletesAtRow i s := by
  obtain ⟨row, hin, hm, hk, hn⟩ := hrow
  refine ⟨row, hin, hm, _, h.trans (ite_done (cond s cc) k m u s), ?_⟩
  rw [rowCost, hc, hk, hn, Option.map_some, Option.getD_some]
  split
  · exact congrArg (· + k) hu
  · rfl

theorem exec_halt (s : State) : ∃ u, exec .halt s = done 4 u ∧ u.cycles = s.cycles := by
  change ∃ u, execHalt s = _ ∧ _
  unfold execHalt
  split_ifs <;> exact ⟨_, rfl, rfl⟩

theorem exec_ei (s : State) : ∃ u, exec .ei s = done 4 u ∧ u.cycles = s.cycles := by
  change ∃ u, execEi s = _ ∧ _
  unfold execEi
  split_ifs <;> exact ⟨_, rfl, rfl⟩

/-- Every instruction but PREFIX CB, by the last thing it writes: that update leaves the step's count alone. -/
theorem completesAtRow {i : Instr} (hi : ∀ op2 : Byte, i ≠ .prefixCb op2) (s : State) : CompletesAtRow i s := by
  cases i
  case prefixCb op2 => exact absurd rfl (hi op2)
  case jrCcS8 | jpCcN16 | retCc => exact completesAtRow_of_cond rfl rfl rfl
  case callCcN16 => exact completesAtRow_of_cond rfl (push16_cycles _ _) rfl
  case ldBcA | ldDeA | ldHlIncA | ldHlDecA | incHl | decHl | ldHlN8 | ldHlR | ldhN8A | ldhCA | ldN16A | rlcHl | rrcHl
      | rlHl | rrHl | slaHl | sraHl | swapHl | srlHl | resBHl | setBHl =>
    exact completesAtRow_of_done rfl (busWrite_cycles _ _ _) rfl
  case ldN16Sp => exact completesAtRow_of_done rfl ((busWrite_cycles _ _ _).trans (busWrite_cycles _ _ _)) rfl
  case incR | decR | ldRN8 | ldRR | ldRHl | rlcR | rrcR | rlR | rrR | slaR | sraR | swapR | srlR | resBR | setBR =>
    exact completesAtRow_of_done rfl (setReg8_cycles _ _ _) rfl
  case ldRrN16 | incRr | decRr => exact completesAtRow_of_done rfl (setR16_cycles _ _ _) rfl
  case popRr => exact completesAtRow_of_done rfl (setR16s_cycles _ _ _) rfl
  case pushRr | pushAf | rst | callN16 => exact completesAtRow_of_done rfl (push16_cycles _ _) rfl
  case halt =>
    obtain ⟨u, h, hu⟩ := exec_halt s
    exact completesAtRow_of_done h hu rfl
  case ei =>
    obtain ⟨u, h, hu⟩ := exec_ei s
    exact completesAtRow_of_done h hu rfl
  all_goals exact completesAtRow_of_done rfl rfl rfl

/-- An instruction and the one it is resolved to do the same, under the same condition (R255; log 11). -/
theorem exec_resolve (i : Instr) (s : State) : exec i.resolve s = exec i s ∧ i.resolve.condition = i.condition := by
  cases i
  case prefixCb op2 =>
    refine ⟨(exec_prefixCb op2 s).symm, ?_⟩
    change (decodeCb op2).condition = none
    revert op2
    decide +kernel
  all_goals exact ⟨rfl, rfl⟩

/-- Settles O5: the resolved instruction has a row, and costs what the instruction does. -/
theorem everyInstructionCompletesAtItsCost : Obligations.EveryInstructionCompletesAtItsCost := by
  intro i s _
  obtain ⟨hexec, hcond⟩ := exec_resolve i s
  obtain ⟨row, hin, hm, t, ht, hc⟩ := completesAtRow (resolve_ne_prefixCb i) s
  exact ⟨row, hin, hm, t, hexec ▸ ht, by rw [hc, rowCost, hcond]⟩

theorem exec_next (i : Instr) (s : State) : ∃ t, exec i s = .next t := by
  obtain ⟨_, _, _, t, ht, _⟩ := completesAtRow (resolve_ne_prefixCb i) s
  exact ⟨t, (exec_resolve i s).1 ▸ ht⟩

/-! ## The parts of a step (R300 to R302) -/

/-- A halted tick (R302). -/
theorem step_of_halted {s u : State} (h1 : s.running = true) (h2 : (hostBoundary s).running = true)
    (hu : u = serviceInterrupts (beginStep (hostBoundary s))) (h : u.halted = true) :
    step s = .next (advanceDevices { u with cycles := u.cycles + 4 }) := by
  subst hu
  rw [step_eq_of_running h1 h2, if_pos h]

/-- An executed instruction: the fetch, the instruction, the countdown of `EI`, the devices (R300). -/
theorem step_of_not_halted {s u : State} (h1 : s.running = true) (h2 : (hostBoundary s).running = true)
    (hu : u = serviceInterrupts (beginStep (hostBoundary s))) (h : u.halted = false) :
    step s = finishInstr (exec (fetchInstr u).1 (fetchInstr u).2) := by
  subst hu
  rw [step_eq_of_running h1 h2, if_neg (Bool.eq_false_iff.mp h)]

/-- The service adds the 20 T-cycles of an entry or none; an entry needs IME and a request, and wakes the CPU (R313,
R316). -/
theorem serviceInterrupts_cycles (s : State) :
    (serviceInterrupts s).cycles = s.cycles ∨
    ((serviceInterrupts s).cycles = s.cycles + 20 ∧ (serviceInterrupts s).halted = false ∧ s.ime = true ∧
      pending s ≠ 0) := by
  rcases serviceInterrupts_cases s with ⟨-, e⟩ | ⟨-, -, e⟩ | ⟨hp, hi, e⟩ <;> rw [e]
  · exact .inl rfl
  · exact .inl rfl
  · exact .inr ⟨congrArg (· + 20) (push16_cycles _ _), push16_halted _ _, hi, hp⟩

/-! ## The T-cycles of a step (R302, R304) -/

/-- The devices leave the CPU alone. -/
theorem State.sameCpu_advanceDevices (s : State) :
    s.SameCpu (advanceDevices s) ∧ (advanceDevices s).cycles = s.cycles := by
  obtain ⟨m, p, n, l, sp, px, da, ta, r, k, so, e⟩ := advanceDevices_eq s
  rw [e]
  exact ⟨⟨rfl, rfl, rfl, rfl, rfl, rfl, rfl, rfl, rfl, rfl, rfl, rfl, rfl, rfl⟩, rfl⟩

/-- Settles O13: a CPU that is still halted entered no interrupt, so the count is the 4 of the halted tick. -/
theorem haltedStepIdlesFourCycles : Obligations.HaltedStepIdlesFourCycles := by
  intro s u h1 h2 hu hh
  have h0 : u.cycles = 0 := by
    rcases serviceInterrupts_cycles (beginStep (hostBoundary s)) with h | ⟨-, h, -⟩
    · exact hu ▸ h
    · rw [hu, h] at hh
      cases hh
  have hs := step_of_halted h1 h2 hu hh
  rw [h0] at hs
  obtain ⟨hcpu, hc⟩ := State.sameCpu_advanceDevices { u with cycles := 4 }
  exact ⟨_, hs, rfl, hcpu, hc⟩

/-- The costs in the table (R92, R420). -/
theorem rowCost_bounds {row : OpcodeRow} (h : row ∈ opcodeRows) (i : Instr) (s : State) :
    4 ≤ rowCost row i s ∧ rowCost row i s ≤ 24 ∧ rowCost row i s % 4 = 0 := by
  have hrows : ∀ row ∈ opcodeRows, (4 ≤ row.cycles ∧ row.cycles ≤ 24 ∧ row.cycles % 4 = 0) ∧
      4 ≤ row.cyclesNotTaken ∧ row.cyclesNotTaken ≤ 24 ∧ row.cyclesNotTaken % 4 = 0 := by decide
  unfold rowCost
  split
  · exact (hrows row h).1
  · exact (hrows row h).2

theorem fetchInstr_ne_prefixCb (s : State) (op2 : Byte) : (fetchInstr s).1 ≠ .prefixCb op2 := by
  unfold fetchInstr
  dsimp only
  split <;> exact resolve_ne_prefixCb _ op2

/-- The fetched instruction with the countdown after it: its row's T-cycles on the count, and no others (R92, R304). -/
theorem promoteIme_exec_fetchInstr (v : State) :
    ∃ w, exec (fetchInstr v).1 (fetchInstr v).2 = .next w ∧ (promoteIme w).frameCycles = v.frameCycles ∧
      ∃ row ∈ opcodeRows, row.mnemonic = (fetchInstr v).1.mnemonic ∧
        (promoteIme w).cycles = v.cycles + rowCost row (fetchInstr v).1 (fetchInstr v).2 := by
  obtain ⟨row, hin, hm, w, hw, hc⟩ := completesAtRow (fetchInstr_ne_prefixCb v) (fetchInstr v).2
  obtain ⟨p, b, hf⟩ := fetchInstr_eq v
  obtain ⟨e, n, hp⟩ := promoteIme_eq w
  have hfetch : (fetchInstr v).2.cycles = v.cycles ∧ (fetchInstr v).2.frameCycles = v.frameCycles := by
    rw [hf]
    exact ⟨rfl, rfl⟩
  refine ⟨w, hw, ?_, row, hin, hm, ?_⟩ <;> rw [hp]
  · exact (exec_frameCycles hw).trans hfetch.2
  · exact hc.trans (congrArg (· + _) hfetch.1)

/-- Settles O12: the count is the service's 0 or 20 and the 4 of a halted tick or the cost of the instruction's row. -/
theorem stepConservesCycles : Obligations.StepConservesCycles := by
  intro s t v h1 h2 hs hv
  have hentry : v.cycles = 0 ∨
      (v.cycles = 20 ∧ v.halted = false ∧ (hostBoundary s).ime = true ∧ pending (hostBoundary s) ≠ 0) :=
    hv ▸ serviceInterrupts_cycles (beginStep (hostBoundary s))
  have hframe : v.frameCycles = (hostBoundary s).frameCycles := by
    obtain ⟨-, -, -, hf, -⟩ := serviceInterrupts_counts (beginStep (hostBoundary s))
    exact hv ▸ hf
  refine ⟨hentry, ?_⟩
  rcases Bool.eq_false_or_eq_true v.halted with hh | hh
  · rw [step_of_halted h1 h2 hv hh] at hs
    injection hs with hs
    exact ⟨_, 4, .inl ⟨hh, rfl, rfl⟩, by decide, by decide, by decide, rfl, by dsimp only; omega, by dsimp only; omega,
      hframe, hs.symm⟩
  · obtain ⟨w, hw, hwf, row, hin, hm, hc⟩ := promoteIme_exec_fetchInstr v
    obtain ⟨hlo, hhi, hmod⟩ := rowCost_bounds hin (fetchInstr v).1 (fetchInstr v).2
    rw [step_of_not_halted h1 h2 hv hh, hw] at hs
    injection hs with hs
    exact ⟨_, _, .inr ⟨hh, w, hw, rfl, row, hin, hm, rfl⟩, hlo, hhi, hmod, hc, by omega, by omega,
      hwf.trans hframe, hs.symm⟩

/-! ## The host (R2, R301, R370) -/

/-- From `s` to `t` the buttons, `running` and the host's queue stay. -/
structure HostKept (s t : State) : Prop where
  buttons : t.buttons = s.buttons
  running : t.running = s.running
  hostInputs : t.hostInputs = s.hostInputs

theorem HostKept.trans {s t u : State} (h : HostKept s t) (g : HostKept t u) : HostKept s u :=
  ⟨g.buttons.trans h.buttons, g.running.trans h.running, g.hostInputs.trans h.hostInputs⟩

theorem hostKept_busWrite (s : State) (a : Word) (v : Byte) : HostKept s (busWrite s a v) :=
  ⟨busWrite_buttons s a v, busWrite_running s a v, busWrite_hostInputs s a v⟩

theorem hostKept_stores (ws : List (Word × Byte)) (s : State) : HostKept s (stores ws s) := by
  induction ws generalizing s with
  | nil => exact ⟨rfl, rfl, rfl⟩
  | cons w ws ih => exact (hostKept_busWrite s w.1 w.2).trans (ih _)

theorem hostKept_enterInterrupt (s : State) (i : Nat) : HostKept s (enterInterrupt s i) :=
  ⟨push16_buttons _ _, push16_running _ _, push16_hostInputs _ _⟩

theorem hostKept_serviceInterrupts (s : State) : HostKept s (serviceInterrupts s) := by
  rcases serviceInterrupts_cases s with ⟨-, e⟩ | ⟨-, -, e⟩ | ⟨-, -, e⟩ <;> rw [e]
  · exact ⟨rfl, rfl, rfl⟩
  · exact ⟨rfl, rfl, rfl⟩
  · exact HostKept.trans (t := { s with halted := false }) ⟨rfl, rfl, rfl⟩ (hostKept_enterInterrupt _ _)

theorem hostKept_fetchInstr (s : State) : HostKept s (fetchInstr s).2 := by
  obtain ⟨p, b, e⟩ := fetchInstr_eq s
  rw [e]
  exact ⟨rfl, rfl, rfl⟩

theorem hostKept_exec {i : Instr} {s t : State} (h : exec i s = .next t) : HostKept s t := by
  obtain ⟨ws, -, hw⟩ := (exec_effect i h).devices
  exact (hostKept_stores ws s).trans ⟨hw.buttons, hw.running, hw.hostInputs⟩

theorem hostKept_promoteIme (s : State) : HostKept s (promoteIme s) := by
  obtain ⟨b, n, e⟩ := promoteIme_eq s
  rw [e]
  exact ⟨rfl, rfl, rfl⟩

theorem hostKept_advanceDevices (s : State) : HostKept s (advanceDevices s) := by
  obtain ⟨m, p, n, l, sp, px, da, ta, r, k, so, e⟩ := advanceDevices_eq s
  rw [e]
  exact ⟨rfl, rfl, rfl⟩

/-- After the host's turn nothing in a step touches what the host owns (R301). -/
theorem step_hostKept {s t : State} (h : step s = .next t) : HostKept (hostBoundary s) t := by
  have hb : HostKept (hostBoundary s) (beginStep (hostBoundary s)) := ⟨rfl, rfl, rfl⟩
  have hv := hb.trans (hostKept_serviceInterrupts _)
  rcases step_cases h with rfl | rfl | ⟨i, w, hw, rfl⟩
  · exact hb
  · refine HostKept.trans ?_ (hostKept_advanceDevices _)
    exact ⟨hv.buttons, hv.running, hv.hostInputs⟩
  · exact (((hv.trans (hostKept_fetchInstr _)).trans (hostKept_exec hw)).trans (hostKept_promoteIme w)).trans
      (hostKept_advanceDevices _)

theorem hostBoundary_of_no_boundary {s : State} (h : atFrameBoundary s = false) : hostBoundary s = s :=
  if_neg (Bool.eq_false_iff.mp h)

theorem hostBoundary_of_no_action {s : State} (h : atFrameBoundary s = true) (hq : s.hostInputs = []) :
    hostBoundary s = { s with frameCycles := 0 } := by
  rw [hostBoundary, if_pos h, hq]

theorem hostBoundary_of_action {s : State} {i : HostInput} {rest : List HostInput} (h : atFrameBoundary s = true)
    (hq : s.hostInputs = i :: rest) :
    hostBoundary s = { applyHostInput s i with frameCycles := 0, hostInputs := rest } := by
  rw [hostBoundary, if_pos h, hq]

/-- A press requests interrupt 4; no other byte changes (R370). -/
theorem raw_applyHostInput (s : State) (i : HostInput) (k : Word) :
    raw (applyHostInput s i) k =
      if k = 0xFF0F ∧ newlyPressed s.buttons i.buttons = true then raw s 0xFF0F ||| 0x10 else raw s k := by
  by_cases hp : newlyPressed s.buttons i.buttons = true
  · have e : raw (applyHostInput s i) k = raw (request s 4) k := by
      rw [applyHostInput, if_pos hp]
      rfl
    rw [e]
    by_cases hk : k = 0xFF0F
    · rw [if_pos ⟨hk, hp⟩, hk, raw_request_if]
      rfl
    · rw [if_neg (fun h => hk h.1)]
      exact raw_rawWrite_io_frame s _ (by decide) hk
  · rw [if_neg (fun h => hp h.2), applyHostInput, if_neg hp]
    rfl

/-- Settles O14: a step's other parts leave the host's fields alone, and one action is a request at most and three fields. -/
theorem hostActsOnlyAtFrameBoundaries : Obligations.HostActsOnlyAtFrameBoundaries := by
  refine ⟨?away, ?action, fun s => hostBoundary_of_no_action⟩
  case away =>
    intro s t h hs
    obtain ⟨hb, hr, hq⟩ := hostBoundary_of_no_boundary h ▸ step_hostKept hs
    exact ⟨hb, hr, hq⟩
  case action =>
    intro s i rest h hq t
    have ht : t = { applyHostInput s i with frameCycles := 0, hostInputs := rest } := hostBoundary_of_action h hq
    have hraw (k : Word) : raw t k = raw (applyHostInput s i) k := by rw [ht]; rfl
    refine ⟨?fields, ?joypad, fun k hk => ?frame⟩
    case fields =>
      obtain ⟨m, e⟩ := applyHostInput_eq s i
      rw [ht, e]
    case joypad =>
      rw [hraw, raw_applyHostInput]
      simp only [true_and]
    case frame => rw [hraw, raw_applyHostInput, if_neg (fun h => hk h.1)]

/-! ## A running machine (R19, R330, R332) -/

theorem exists_step {s : State} (h1 : s.running = true) : ∃ t, step s = .next t := by
  by_cases h2 : (hostBoundary s).running = true
  · rcases Bool.eq_false_or_eq_true (serviceInterrupts (beginStep (hostBoundary s))).halted with hh | hh
    · exact ⟨_, step_of_halted h1 h2 rfl hh⟩
    · obtain ⟨t, ht⟩ := exec_next (fetchInstr (serviceInterrupts (beginStep (hostBoundary s)))).1
        (fetchInstr (serviceInterrupts (beginStep (hostBoundary s)))).2
      exact ⟨_, (step_of_not_halted h1 h2 rfl hh).trans (congrArg finishInstr ht)⟩
  · exact ⟨_, (if_pos h1).trans (if_neg h2)⟩

/-- The machine runs and no action of the host to come stops it. -/
def NeverStopped (s : State) : Prop := s.running = true ∧ ∀ i ∈ s.hostInputs, i.stop = false

theorem NeverStopped.hostBoundary {s : State} (h : NeverStopped s) : NeverStopped (Machine.hostBoundary s) := by
  obtain ⟨hr, hq⟩ := h
  rcases Bool.eq_false_or_eq_true (atFrameBoundary s) with hb | hb
  · cases hs : s.hostInputs with
    | nil =>
      rw [hostBoundary_of_no_action hb hs]
      exact ⟨hr, hq⟩
    | cons i rest =>
      obtain ⟨m, e⟩ := applyHostInput_eq s i
      rw [hs, List.forall_mem_cons] at hq
      rw [hostBoundary_of_action hb hs, e]
      exact ⟨by rw [hr, hq.1]; rfl, hq.2⟩
  · rw [hostBoundary_of_no_boundary hb]
    exact ⟨hr, hq⟩

theorem NeverStopped.step {s t : State} (h : NeverStopped s) (hs : Machine.step s = .next t) : NeverStopped t := by
  obtain ⟨-, hr, hq⟩ := step_hostKept hs
  rw [NeverStopped, hr, hq]
  exact h.hostBoundary

theorem NeverStopped.runs {s : State} (n : Nat) (h : NeverStopped s) : s.runs n := by
  induction n generalizing s with
  | zero => trivial
  | succ n ih =>
    obtain ⟨t, ht⟩ := exists_step h.1
    exact ⟨t, ht, ih (h.step ht)⟩

/-- Settles O11: no instruction stops the machine, and its step leaves `running` and the host's queue to the host. -/
theorem runningMachineAlwaysSteps : Obligations.RunningMachineAlwaysSteps :=
  ⟨fun _ => exists_step, fun n _ hr hq => NeverStopped.runs n ⟨hr, hq⟩, fun _ h => if_neg (Bool.eq_false_iff.mp h)⟩

/-! ## The fetched instruction (R65, R82) -/

/-- The bytes of a decoded instruction, by their number. -/
theorem decode_cases_by_length {bytes rest : List Byte} {i : Instr} (h : decode bytes = .ok (i, rest)) :
    ∃ op, (instrLength op = 1 ∧ bytes = op :: rest ∧ i = decodeBytes op 0 0) ∨
      (∃ b1, instrLength op = 2 ∧ bytes = op :: b1 :: rest ∧ i = decodeBytes op b1 0) ∨
      ∃ b1 b2, instrLength op = 3 ∧ bytes = op :: b1 :: b2 :: rest ∧ i = decodeBytes op b1 b2 := by
  unfold decode at h
  split at h
  · cases h
  · next op tail =>
    refine ⟨op, ?_⟩
    split at h
    · next hl => cases h; exact .inl ⟨hl, rfl, rfl⟩
    · next b1 _ hl => cases h; exact .inr (.inl ⟨b1, hl, rfl, rfl⟩)
    · next b1 b2 _ hl => cases h; exact .inr (.inr ⟨b1, b2, hl, rfl, rfl⟩)
    · cases h

/-- Where the bus reads the bytes of one instruction, they are fetched as that instruction, all of them (R65, R82). -/
theorem fetchInstr_of_decodes {u : State} {bytes : List Byte} {i : Instr} (hb : u.haltBug = false)
    (hd : Decodes bytes i)
    (hread : ∀ (k : Nat) (v : Byte), bytes[k]? = some v → busRead u (u.pc + BitVec.ofNat 16 k) = v) :
    fetchInstr u = (i, { u with pc := u.pc + BitVec.ofNat 16 bytes.length }) := by
  have h1 : (afterFetch u).pc = u.pc + BitVec.ofNat 16 1 := by rw [afterFetch_of_no_bug hb]; rfl
  have h2 : (afterFetch (afterFetch u)).pc = u.pc + BitVec.ofNat 16 2 := by
    rw [afterFetch_of_no_bug hb, afterFetch_setPc hb, BitVec.add_assoc]
    rfl
  have hdecode : decode bytes = .ok (i, []) := bytes.append_nil ▸ hd []
  obtain ⟨op, ⟨hl, rfl, rfl⟩ | ⟨b1, hl, rfl, rfl⟩ | ⟨b1, b2, hl, rfl, rfl⟩⟩ := decode_cases_by_length hdecode
  all_goals
    have h0 : busRead u u.pc = op := by simpa using hread 0 op rfl
    have hstate := fetchInstr_state_of_no_bug hb
    rw [h0, hl] at hstate
    refine Prod.ext ?_ hstate
  · rw [fetchInstr_of_length_one (h0 ▸ hl), h0]
  · rw [fetchInstr_of_length_two (h0 ▸ hl), h0, h1, hread 1 b1 rfl]
  · rw [fetchInstr_of_length_three (h0 ▸ hl), h0, h1, h2, hread 1 b1 rfl, hread 2 b2 rfl]

/-- Settles O6: the step ends with the fetched instruction's state, and without the halt bug the bytes at PC are fetched. -/
theorem stepRunsTheDecodedInstruction : Obligations.StepRunsTheDecodedInstruction := by
  intro s u h1 h2 hu hh
  have hs := step_of_not_halted h1 h2 hu hh
  obtain ⟨t, ht⟩ := exec_next (fetchInstr u).1 (fetchInstr u).2
  rw [ht] at hs
  refine ⟨⟨t, ht, hs⟩, fun bytes i hb hd hread => ⟨t, ?_, hs⟩⟩
  rwa [fetchInstr_of_decodes hb hd hread] at ht

end Sys2Proof.Machine
end

section
/-! The interrupt service, the timer, the DMA lockout and the serial tap (60_exceptions R303, R312 to R316, R340 to R343,
R351). -/

namespace Sys2Proof.Machine

/-- The bytes after a raw store above the echo (R42). -/
theorem raw_rawWrite_io_eq (s : State) {a : Word} (v : Byte) (k : Word) (ha : 0xFE00 ≤ a.toNat) :
    raw (rawWrite s a v) k = if k = a then v else raw s k := by
  split
  case isTrue h => rw [h, raw_rawWrite_self]
  case isFalse h => exact raw_rawWrite_io_frame s v ha h

/-- The bytes after a request (R311). -/
theorem raw_request_eq (s : State) (i : Nat) (k : Word) :
    raw (request s i) k = if k = 0xFF0F then raw s 0xFF0F ||| (1#8 <<< i) else raw s k :=
  raw_rawWrite_io_eq s _ k (by decide)

/-! ## The interrupt service (R312 to R316) -/

/-- Settles O52: the service is one of its three cases. -/
theorem serviceWithoutEntry : Obligations.ServiceWithoutEntry := by
  refine fun s => ⟨pending_getLsbD s, fun h => if_pos h, fun h hi => ?wakes⟩
  case wakes => exact (if_neg h).trans (if_neg (Bool.eq_false_iff.mp hi))

/-- The lowest bit set of a byte with one of bits 4..0 set (R310, R313 step 5). -/
theorem lowestBit_spec {p : Byte} (h : p &&& 0x1F ≠ 0) :
    lowestBit p < 5 ∧ p.getLsbD (lowestBit p) = true ∧ ∀ j, j < lowestBit p → p.getLsbD j = false := by
  revert p
  decide +kernel

theorem pending_and_self (s : State) : pending s &&& 0x1F = pending s := by
  rw [pending, BitVec.and_assoc, BitVec.and_self]

/-- The bus does not look at IME, `halted` and `ime_delay`. -/
theorem busWrite_setControl (s : State) (ime halted : Bool) (d : Nat) (a : Word) (v : Byte) :
    busWrite { s with ime := ime, halted := halted, imeDelay := d } a v =
      { busWrite s a v with ime := ime, halted := halted, imeDelay := d } := by
  have hg : gated { s with ime := ime, halted := halted, imeDelay := d } a = gated s a := rfl
  unfold busWrite
  rw [hg]
  split_ifs <;> rfl

/-- The request bit `i` put into IF (R311). -/
theorem or_request_getLsbD (x : Byte) {i b : Nat} (hi : i < 8) :
    (x ||| (1#8 <<< i)).getLsbD b = (x.getLsbD b || decide (b = i)) := by
  have hbit : (1#8 <<< i).getLsbD b = decide (b = i) := getLsbD_bitMask ⟨i, hi⟩ b
  rw [BitVec.getLsbD_or, hbit]

/-- The request bit `i` taken out of IF (R313 step 5). -/
theorem clear_request_getLsbD (x : Byte) {i b : Nat} (hi : i < 8) (hb : b < 8) :
    (x &&& ~~~(1#8 <<< i)).getLsbD b = (x.getLsbD b && decide (b ≠ i)) := by
  have hbit : (1#8 <<< i).getLsbD b = decide (b = i) := getLsbD_bitMask ⟨i, hi⟩ b
  rw [BitVec.getLsbD_and, BitVec.getLsbD_not, hbit, decide_eq_true hb, Bool.true_and, decide_not]

theorem vectorOf_eq (i : Nat) : vectorOf i = BitVec.ofNat 16 (0x0040 + 8 * i) := by
  rw [BitVec.ofNat_add, BitVec.ofNat_mul]
  rfl

/-- The two stores of an entry, which pushes PC (R135, R313 step 4). -/
def entryStores (s : State) : State := busWrite (busWrite s (s.sp - 1) (hiByte s.pc)) (s.sp - 2) (loByte s.pc)

theorem push16_setControl (s : State) (ime halted : Bool) (d : Nat) :
    push16 { s with ime := ime, halted := halted, imeDelay := d } s.pc =
      { entryStores s with ime := ime, halted := halted, imeDelay := d, sp := s.sp - 2 } := by
  unfold push16
  dsimp only
  rw [busWrite_setControl s, busWrite_setControl (busWrite s (s.sp - 1) (hiByte s.pc))]
  rfl

/-- The state after an entry: the two stores, the request cleared, the control flags, SP and PC (R313, R315, R316). -/
theorem enterInterrupt_eq (s : State) (i : Nat) :
    enterInterrupt { s with halted := false } i =
      { rawWrite (entryStores s) 0xFF0F (raw (entryStores s) 0xFF0F &&& ~~~(1#8 <<< i)) with
        ime := false, halted := false, imeDelay := if s.cfg.eiDelay then 0 else s.imeDelay, sp := s.sp - 2
        pc := BitVec.ofNat 16 (0x0040 + 8 * i), cycles := s.cycles + 20 } := by
  have hcycles : (entryStores s).cycles = s.cycles := (busWrite_cycles _ _ _).trans (busWrite_cycles _ _ _)
  unfold enterInterrupt
  dsimp only
  rw [push16_setControl, vectorOf_eq]
  dsimp only [rawWrite_cycles]
  rw [hcycles]
  rfl

/-- Settles O51: the entry's stores, and the lowest-numbered request cleared. -/
theorem interruptEntry : Obligations.InterruptEntry := by
  intro s t hime hp ht u
  obtain ⟨hlt, hset, hlow⟩ := lowestBit_spec ((pending_and_self s).symm ▸ hp)
  have hserv : t = enterInterrupt { s with halted := false } (lowestBit (pending s)) :=
    ht.trans ((if_neg hp).trans (if_pos hime))
  rw [enterInterrupt_eq] at hserv
  generalize lowestBit (pending s) = i at *
  have hraw (k : Word) : raw t k = raw (rawWrite u 0xFF0F (raw u 0xFF0F &&& ~~~(1#8 <<< i))) k := by rw [hserv]; rfl
  have hframe (k : Word) (hk : k ≠ 0xFF0F) : raw t k = raw u k := by rw [hraw, raw_rawWrite_io_frame _ _ (by decide) hk]
  refine ⟨i, hlt, hset, hlow, ?state, fun b hb => ?request, hframe, fun k hk h1 h2 => ?reached, ?registers⟩
  case state => rw [hserv]; rfl
  case request => rw [hraw, raw_rawWrite_self, clear_request_getLsbD _ (by omega) hb]
  case reached => rw [hframe k hk, raw_two_busWrites_frame _ _ _ h1 h2]
  case registers =>
    have hne {a : Word} (h : ramByte a = true) : a ≠ 0xFF0F := by
      rintro rfl
      cases h
    refine ⟨?_, ?_, ?_, ?_, ?_, ?_, ?_, ?_, ?_, fun h1 h2 => ?_⟩
    case refine_10 =>
      rw [hframe _ (hne h1), hframe _ (hne h2)]
      exact raw_two_busWrites s _ _ (phys_push_ne s.sp) (plainStore_of_ram h1) (plainStore_of_ram h2)
    all_goals
      rw [hserv]
      simp [entryStores]

/-! ## The timer (R340 to R343) -/

/-- One increment of TIMA, byte by byte (R340, R342). -/
theorem raw_timaTick (s : State) (k : Word) : raw (timaTick s) k =
    if k = 0xFF05 then (if raw s 0xFF05 = 0xFF then raw s 0xFF06 else raw s 0xFF05 + 1)
    else if k = 0xFF0F ∧ raw s 0xFF05 = 0xFF then raw s 0xFF0F ||| 0x04 else raw s k := by
  unfold timaTick
  split
  case isFalse h => rw [raw_rawWrite_io_eq _ _ _ (by decide), if_neg (fun g : _ ∧ _ => h g.2)]
  case isTrue h =>
    rw [raw_request_eq, raw_rawWrite_io_eq _ _ k (by decide), raw_rawWrite_io_eq _ _ 0xFF0F (by decide),
      if_neg (show (0xFF0F : Word) ≠ 0xFF05 by decide)]
    by_cases hk : k = 0xFF05
    · rw [if_neg (by rw [hk]; decide), if_pos hk, if_pos hk]
    · rw [if_neg hk, if_neg hk]
      simp only [h, and_true]
      rfl

theorem timaTicks_succ (n : Nat) (s : State) : timaTicks (n + 1) s = timaTick (timaTicks n s) := by
  induction n generalizing s with
  | zero => rfl
  | succ n ih => exact ih (timaTick s)

/-- The increments write TIMA and IF only. -/
theorem raw_timaTicks_frame (n : Nat) (s : State) {k : Word} (h5 : k ≠ 0xFF05) (hF : k ≠ 0xFF0F) :
    raw (timaTicks n s) k = raw s k := by
  induction n with
  | zero => rfl
  | succ n ih => rw [timaTicks_succ, raw_timaTick, if_neg h5, if_neg (fun h => hF h.1), ih]

/-- The values of TIMA, increment by increment: the wrap reloads it from TMA (R342). -/
def IsTima (s : State) (tima : Nat → Byte) : Prop :=
  tima 0 = raw s 0xFF05 ∧ ∀ k, tima (k + 1) = if tima k = 0xFF then raw s 0xFF06 else tima k + 1

theorem raw_timaTicks_tima {s : State} {tima : Nat → Byte} (h : IsTima s tima) (n : Nat) :
    raw (timaTicks n s) 0xFF05 = tima n := by
  induction n with
  | zero => exact h.1.symm
  | succ n ih => rw [timaTicks_succ, raw_timaTick, if_pos rfl, ih, raw_timaTicks_frame n s (by decide) (by decide), h.2]

/-- IF gets bit 2 when one of the increments is a wrap (R342). -/
theorem raw_timaTicks_if {s : State} {tima : Nat → Byte} (h : IsTima s tima) (n : Nat) :
    ((∃ k, k < n ∧ tima k = 0xFF) → raw (timaTicks n s) 0xFF0F = raw s 0xFF0F ||| 0x04) ∧
    ((∀ k, k < n → tima k ≠ 0xFF) → raw (timaTicks n s) 0xFF0F = raw s 0xFF0F) := by
  induction n with
  | zero => exact ⟨fun ⟨_, hk, _⟩ => absurd hk (Nat.not_lt_zero _), fun _ => rfl⟩
  | succ n ih =>
    obtain ⟨ihwrap, ihnone⟩ := ih
    rw [timaTicks_succ, raw_timaTick, if_neg (by decide), raw_timaTicks_tima h]
    by_cases hn : tima n = 0xFF
    · rw [if_pos ⟨rfl, hn⟩]
      refine ⟨fun _ => ?_, fun g => absurd hn (g n (Nat.lt_succ_self n))⟩
      by_cases hb : ∃ k, k < n ∧ tima k = 0xFF
      · rw [ihwrap hb, BitVec.or_assoc, BitVec.or_self]
      · rw [ihnone fun k hk hw => hb ⟨k, hk, hw⟩]
    · rw [if_neg (fun g => hn g.2)]
      refine ⟨fun ⟨k, hk, hw⟩ => ihwrap ⟨k, ?_, hw⟩, fun g => ihnone fun k hk => g k (Nat.lt_succ_of_lt hk)⟩
      exact Nat.lt_of_le_of_ne (Nat.le_of_lt_succ hk) fun e => hn (e ▸ hw)

/-- The thresholds by TAC bits 1..0 (R31, R340). -/
theorem timaThreshold_eq (tac : Byte) : timaThreshold tac = ![1024, 16, 64, 256] (tac.extractLsb' 0 2).toFin := by
  revert tac
  decide +kernel

theorem raw_divStep_frame (s : State) (c : Nat) {k : Word} (h : k ≠ 0xFF04) : raw (divStep s c) k = raw s k :=
  raw_rawWrite_io_frame s _ (by decide) h

/-- DIV counts modulo 256 (R340, R341). -/
theorem raw_divStep_div (s : State) (c : Nat) :
    (raw (divStep s c) 0xFF04).toNat = ((raw s 0xFF04).toNat + (s.divAcc + c) / 256) % 256 := by
  have h : raw (divStep s c) 0xFF04 = raw s 0xFF04 + BitVec.ofNat 8 ((s.divAcc + c) / 256) := raw_rawWrite_self s 0xFF04 _
  rw [h, BitVec.toNat_add, BitVec.toNat_ofNat, Nat.add_mod_mod]

/-- The timer step is DIV's step and then as many increments of TIMA as its T-cycles make, none while it is off. -/
theorem timerStep_eq_timaTicks (s : State) (c n : Nat)
    (hn : n = if timerOn s then (s.timaAcc + c) / timaThreshold (raw s 0xFF07) else 0) :
    timerStep s c = { timaTicks n (divStep s c) with
      timaAcc := if timerOn s then (s.timaAcc + c) % timaThreshold (raw s 0xFF07) else s.timaAcc } := by
  have htac : raw (divStep s c) 0xFF07 = raw s 0xFF07 := raw_divStep_frame s c (by decide)
  have hon : timerOn (divStep s c) = timerOn s := congrArg (·.getLsbD 2) htac
  rw [timerStep, timaStep, hon, htac, hn]
  split <;> rfl

/-- Settles O54: DIV's step changes nothing the increments of TIMA look at, and they write TIMA and IF only. -/
theorem timerCountsDivAndTima : Obligations.TimerCountsDivAndTima := by
  intro s t c n tima ht hn h0 hs
  rw [← timaThreshold_eq] at hn ⊢
  obtain ⟨m, hm⟩ := timaTicks_eq n (divStep s c)
  have htick := timerStep_eq_timaTicks s c n hn
  have hraw (k : Word) : raw t k = raw (timaTicks n (divStep s c)) k := by rw [ht, htick]; rfl
  have hdiv {k : Word} (h : k ≠ 0xFF04) : raw (divStep s c) k = raw s k := raw_divStep_frame s c h
  have htima : IsTima (divStep s c) tima := by
    refine ⟨h0.trans (hdiv (by decide)).symm, fun k => ?_⟩
    rw [hs, hdiv (by decide)]
  have hif := raw_timaTicks_if htima n
  rw [hdiv (by decide)] at hif
  refine ⟨?state, ?div, ?tima, fun h => ?wrap, fun h => ?noWrap, fun k h4 h5 hF => ?frame⟩
  case state => rw [ht, htick, hm]; rfl
  case div => rw [hraw, raw_timaTicks_frame _ _ (by decide) (by decide), raw_divStep_div]
  case tima => rw [hraw, raw_timaTicks_tima htima]
  case wrap => rw [hraw, hif.1 h]
  case noWrap => rw [hraw, hif.2 h]
  case frame => rw [hraw, raw_timaTicks_frame _ _ h5 hF, hdiv h4]

/-! ## The DMA lockout (R351) -/

/-- Settles O55: the smaller of the sum and 640, on the two sides of 640. -/
theorem dmaLockoutEndsAt640 : Obligations.DmaLockoutEndsAt640 := by
  intro s c
  refine ⟨fun hr hc => ?below, fun hr hc => ?ends, fun h => if_neg (Bool.eq_false_iff.mp h)⟩
  case below =>
    have hne : (s.dmaCounter + c == 640) = false := beq_false_of_ne (Nat.ne_of_lt hc)
    rw [dmaStep, if_pos hr, Nat.min_eq_left (Nat.le_of_lt hc)]
    dsimp only
    rw [hne, Bool.not_false, hr]
  case ends =>
    rw [dmaStep, if_pos hr, Nat.min_eq_right hc]
    rfl

/-! ## The serial tap (R303) -/

/-- Settles O56: the tap's condition holds or not. -/
theorem serialTapEmitsAndClears : Obligations.SerialTapEmitsAndClears := by
  rintro s t rfl
  refine ⟨fun hb hc => ?emits, fun h => if_neg ?idle⟩
  case emits =>
    rw [serialTap, if_pos ⟨hb, hc⟩]
    exact ⟨rfl, raw_rawWrite_self s 0xFF02 0, fun k hk => raw_rawWrite_io_frame s 0 (by decide) hk⟩
  case idle =>
    rintro ⟨hb, hc⟩
    exact h.elim (Nat.not_le_of_lt hb) fun hne => hne hc

end Sys2Proof.Machine
end

section
/-! The OAM scan and the scanline renderer (60_exceptions R364 to R368). -/

namespace Sys2Proof.Machine

/-! ## The OAM scan (R364) -/

/-- The first `n` numbers that meet a test are those with fewer than `n` such numbers before them. -/
theorem mem_take_filter_range (p : Nat → Bool) (n m k : Nat) :
    k ∈ ((List.range m).filter p).take n ↔ k < m ∧ p k = true ∧ ((List.range k).filter p).length < n := by
  induction m with
  | zero => simp
  | succ m ih =>
    have hlast : k ∈ (([m] : List Nat).filter p).take (n - ((List.range m).filter p).length) ↔
        k = m ∧ p k = true ∧ ((List.range k).filter p).length < n := by
      rw [List.filter_singleton]
      by_cases hp : p m = true
      · rw [hp, cond_true]
        by_cases hn : ((List.range m).filter p).length < n
        · rw [List.take_of_length_le (Nat.sub_pos_of_lt hn), List.mem_singleton]
          exact ⟨fun h => ⟨h, h ▸ hp, h ▸ hn⟩, fun h => h.1⟩
        · rw [Nat.sub_eq_zero_of_le (Nat.le_of_not_lt hn), List.take_zero]
          exact ⟨fun h => (List.not_mem_nil h).elim, fun ⟨hk, _, hlt⟩ => absurd (hk ▸ hlt) hn⟩
      · rw [Bool.eq_false_iff.mpr hp, cond_false, List.take_nil]
        exact ⟨fun h => (List.not_mem_nil h).elim, fun ⟨hk, hpk, _⟩ => absurd (hk ▸ hpk) hp⟩
    rw [List.range_succ, List.filter_append, List.take_append, List.mem_append, ih, hlast, Nat.lt_succ_iff_lt_or_eq,
      or_and_right]

/-- The order of the sprite list: by X, and for the same X by the index in OAM (R364). -/
def Before (u v : Sprite) : Prop := u.x.toNat < v.x.toNat ∨ (u.x = v.x ∧ u.index < v.index)

theorem Before.trans {u v w : Sprite} (h : Before u v) (g : Before v w) : Before u w := by
  rcases h with h | ⟨h, hi⟩ <;> rcases g with g | ⟨g, gi⟩
  · exact .inl (Nat.lt_trans h g)
  · exact .inl (g ▸ h)
  · exact .inl (h ▸ g)
  · exact .inr ⟨h.trans g, Nat.lt_trans hi gi⟩

/-- A record that comes before all others in OAM goes before those with its X. -/
theorem pairwise_before_insertByX {sp : Sprite} {ts : List Sprite} (h : ts.Pairwise Before)
    (hsp : ∀ u ∈ ts, sp.index < u.index) : (insertByX sp ts).Pairwise Before := by
  induction ts with
  | nil => exact List.pairwise_singleton _ _
  | cons t ts ih =>
    obtain ⟨h1, h2⟩ := List.pairwise_cons.mp h
    obtain ⟨hspt, hspts⟩ := List.forall_mem_cons.mp hsp
    by_cases hx : sp.x.toNat ≤ t.x.toNat
    · have hbefore : Before sp t := by
        rcases Nat.lt_or_eq_of_le hx with hlt | heq
        · exact .inl hlt
        · exact .inr ⟨BitVec.eq_of_toNat_eq heq, hspt⟩
      rw [insertByX, if_pos hx, List.pairwise_cons]
      refine ⟨List.forall_mem_cons.mpr ⟨hbefore, fun u hu => ?_⟩, h⟩
      exact hbefore.trans (h1 u hu)
    · rw [insertByX, if_neg hx, List.pairwise_cons]
      refine ⟨fun u hu => ?_, ih h2 hspts⟩
      rcases mem_insertByX.mp hu with rfl | hu
      · exact .inl (Nat.lt_of_not_le hx)
      · exact h1 u hu

/-- Records in OAM order are sorted with ties kept in that order (R364). -/
theorem pairwise_before_sortByX {ts : List Sprite} (h : ts.Pairwise (·.index < ·.index)) :
    (sortByX ts).Pairwise Before := by
  induction ts with
  | nil => exact List.Pairwise.nil
  | cons sp ts ih =>
    obtain ⟨h1, h2⟩ := List.pairwise_cons.mp h
    exact pairwise_before_insertByX (ih h2) fun u hu => h1 u (mem_sortByX.mp hu)

/-- The entries on the line, at most ten, by their numbers (R364). -/
theorem visibleSprites_eq (s : State) :
    visibleSprites s = (((List.range 40).filter (fun k => onLine s.ly (spriteHeight s) (oamEntry s k))).take 10).map
      (oamEntry s) := by
  rw [visibleSprites, List.filter_map, List.map_take]
  rfl

theorem visibleSprites_pairwise (s : State) : (visibleSprites s).Pairwise (·.index < ·.index) := by
  rw [visibleSprites_eq, List.pairwise_map]
  exact (List.pairwise_lt_range.filter _).take

/-- Settles O58: the sort keeps the records, whose numbers are the first ten on the line. -/
theorem oamScanTakesTheFirstTen : Obligations.OamScanTakesTheFirstTen := by
  rintro s t rfl height at' covers
  have hcovers : covers = fun k => onLine s.ly (spriteHeight s) (oamEntry s k) := by
    funext k
    simp only [covers, onLine, Bool.decide_and]
    rfl
  refine ⟨rfl, ?length, fun u => ?member, pairwise_before_sortByX (visibleSprites_pairwise s)⟩
  case length => exact (oamScan_spritesOk s).1
  case member =>
    change u ∈ sortByX (visibleSprites s) ↔ _
    simp only [mem_sortByX, visibleSprites_eq, List.mem_map, ← hcovers, mem_take_filter_range, and_assoc]
    exact exists_congr fun k => and_congr_right fun _ => and_congr_right fun _ => and_congr_right fun _ => eq_comm

/-! ## Pixels of a tile (R365) -/

theorem rawAt_natCast (s : State) (n : Nat) : rawAt s n = raw s (BitVec.ofNat 16 n) := by
  rw [rawAt, BitVec.ofInt_natCast]

/-- The second byte has the number's upper bit (R365). -/
theorem colorNumber_eq (b1 b2 : Byte) (b : Nat) :
    colorNumber b1 b2 b = BitVec.ofBool (b2.getLsbD b) ++ BitVec.ofBool (b1.getLsbD b) := by
  unfold colorNumber
  cases b1.getLsbD b <;> cases b2.getLsbD b <;> rfl

/-- A palette shifted down to the number's two bits (R365, R367). -/
theorem shadeOf_eq (palette : Byte) (cn : BitVec 2) : shadeOf palette cn = (palette >>> (cn.toNat * 2)).setWidth 2 := by
  refine BitVec.eq_of_getLsbD_eq fun i hi => ?_
  rw [shadeOf, BitVec.getLsbD_extractLsb', BitVec.getLsbD_setWidth, BitVec.getLsbD_ushiftRight]

/-- The address of a tile's pattern: unsigned from 0x8000, or signed from 0x9000 (R365). -/
def tilePattern (lcdc id : Byte) : Nat :=
  if lcdc.getLsbD 4 then 0x8000 + id.toNat * 16
  else if id.getLsbD 7 then 0x8000 + id.toNat * 16 else 0x9000 + id.toNat * 16

theorem tilePattern_eq (lcdc id : Byte) :
    (tilePattern lcdc id : Int) =
      if lcdc.getLsbD 4 then 0x8000 + (id.toNat : Int) * 16 else 0x9000 + id.toInt * 16 := by
  have hmsb : id.msb = id.getLsbD 7 := BitVec.msb_eq_getLsbD_last id
  rw [tilePattern, BitVec.toInt_eq_msb_cond, hmsb]
  split_ifs <;> omega

/-- The pixel of a tile map at a column and a row of the map (R365). -/
def mapPixel (s : State) (map col row : Nat) : BitVec 2 :=
  let id : Byte := raw s (BitVec.ofNat 16 (map + row / 8 * 32 + col / 8))
  let pattern : Nat := tilePattern (raw s 0xFF40) id
  BitVec.ofBool ((raw s (BitVec.ofNat 16 (pattern + row % 8 * 2 + 1))).getLsbD (7 - col % 8)) ++
    BitVec.ofBool ((raw s (BitVec.ofNat 16 (pattern + row % 8 * 2))).getLsbD (7 - col % 8))

/-- The map's byte names the tile, and the map's column and row modulo 8 are those in the tile (R365). -/
theorem tilePixel_eq_mapPixel (s : State) (map col row : Nat) :
    tilePixel s (rawAt s (map + (row / 8 * 32 + col / 8 : Nat))) (col % 8) (row % 8) = mapPixel s map col row := by
  have hid : rawAt s (map + (row / 8 * 32 + col / 8 : Nat)) = raw s (BitVec.ofNat 16 (map + row / 8 * 32 + col / 8)) := by
    rw [← Int.natCast_add, rawAt_natCast, Nat.add_assoc]
  rw [tilePixel, hid]
  rw [← tilePattern_eq, colorNumber_eq]
  have hrow (p r : Nat) : rawAt s (p + r * 2 : Int) = raw s (BitVec.ofNat 16 (p + r * 2)) := by
    exact_mod_cast rawAt_natCast s (p + r * 2)
  have hnext (p r : Nat) : rawAt s (p + r * 2 + 1 : Int) = raw s (BitVec.ofNat 16 (p + r * 2 + 1)) := by
    exact_mod_cast rawAt_natCast s (p + r * 2 + 1)
  rw [hrow, hnext]
  rfl

/-! ## One line (R366, R368) -/

theorem bgPixel_eq (s : State) (x : Nat) : bgPixel s x =
    mapPixel s (if (raw s 0xFF40).getLsbD 3 then 0x9C00 else 0x9800) (((raw s 0xFF43).toNat + x) % 256)
      (((raw s 0xFF42).toNat + s.ly) % 256) := by
  rw [← tilePixel_eq_mapPixel, bgPixel]
  split <;> rfl

theorem winPixel_eq (s : State) (x : Nat) : winPixel s x =
    mapPixel s (if (raw s 0xFF40).getLsbD 6 then 0x9C00 else 0x9800) (x + 7 - (raw s 0xFF4B).toNat)
      (s.ly - (raw s 0xFF4A).toNat) := by
  rw [← tilePixel_eq_mapPixel, winPixel]
  split <;> rfl

/-- Settles O59: the list is the old one and the 160 pixels, and a pixel's number comes from one of the two maps. -/
theorem scanlineEmitsItsPixels : Obligations.ScanlineEmitsItsPixels := by
  rintro s t x rfl hx lcdc rawI pixel window under sprite
  have hunder : underPixel s x = under := by
    rw [underPixel, winPixel_eq, bgPixel_eq]
    rfl
  have hpixel : renderPixel s x =
      { x := x, y := s.ly, shade := sprite.getD ((raw s 0xFF47 >>> (under.toNat * 2)).setWidth 2) } := by
    rw [renderPixel, hunder, shadeOf_eq]
    rfl
  refine ⟨rfl, ?length, fun j hj => List.getElem?_append_left hj, ?pixel⟩
  case length => simp [renderScanline]
  case pixel =>
    rw [renderScanline, List.getElem?_append_right (Nat.le_add_right _ _), Nat.add_sub_cancel_left, List.getElem?_map,
      List.getElem?_range hx, ← hpixel]
    rfl

/-! ## Sprites (R367) -/

/-- The row of a sprite's pattern, counted from the first tile of the pattern: turned by bit 6, within its tile or over
sixteen rows (R367, D24). -/
def turnedRow (swaps tall yflip : Bool) (row : Int) : Int :=
  if yflip = false then row
  else if tall = false then 7 - row
  else if swaps then 15 - row
  else if row < 8 then 7 - row else 23 - row

theorem toNat_and_FE (v : Byte) : (v &&& 0xFE).toNat = v.toNat / 2 * 2 := by
  revert v
  decide +kernel

theorem toNat_or_01 (v : Byte) : (v ||| 0x01).toNat = v.toNat / 2 * 2 + 1 := by
  revert v
  decide +kernel

/-- The second tile of a tall sprite follows the first, 16 bytes on, so both variants of D24 read one row of the pair. -/
theorem spriteTileRow_address (swaps tall : Bool) (sp : Sprite) (row : Int) :
    ((spriteTileRow swaps tall sp row).1 : Int) * 16 + (spriteTileRow swaps tall sp row).2 * 2 =
      (if tall then sp.tile.toNat / 2 * 2 else sp.tile.toNat : Nat) * 16 +
        turnedRow swaps tall (sp.attrs.getLsbD 6) row * 2 := by
  unfold spriteTileRow turnedRow
  cases tall with
  | false => cases sp.attrs.getLsbD 6 <;> simp
  | true =>
    rw [toNat_and_FE, toNat_or_01]
    rcases lt_or_ge row 8 with h | h
    · have h15 : ¬15 - row < 8 := by omega
      cases sp.attrs.getLsbD 6 <;> cases swaps <;> simp [h, h15]
      omega
    · have h7 : ¬row < 8 := by omega
      have h15 : 15 - row < 8 := by omega
      cases sp.attrs.getLsbD 6 <;> cases swaps <;> simp [h7, h15] <;> omega

/-- The colour number of a sprite where it covers the column (R367). -/
theorem spriteColor_of_covers {s : State} {x : Nat} {sp : Sprite} (h : sp.x.toNat ≤ x + 8 ∧ x < sp.x.toNat) :
    let tall : Bool := (raw s 0xFF40).getLsbD 2
    let tile : Nat := if tall then sp.tile.toNat / 2 * 2 else sp.tile.toNat
    let column : Nat := if sp.attrs.getLsbD 5 then x + 8 - sp.x.toNat else sp.x.toNat - 1 - x
    let pattern : Int := 0x8000 + tile * 16 +
      turnedRow s.cfg.sprite16YFlipSwapsTiles tall (sp.attrs.getLsbD 6) ((s.ly : Int) + 16 - sp.y.toNat) * 2
    spriteColor s x sp = some (BitVec.ofBool ((rawAt s (pattern + 1)).getLsbD column) ++
      BitVec.ofBool ((rawAt s pattern).getLsbD column)) := by
  intro tall tile column pattern
  have haddr := spriteTileRow_address s.cfg.sprite16YFlipSwapsTiles tall sp ((s.ly : Int) + 16 - sp.y.toNat)
  have hpattern := (Int.add_assoc 0x8000 _ _).trans ((congrArg (0x8000 + ·) haddr).trans (Int.add_assoc 0x8000 _ _).symm)
  have hcolumn : 7 - (x + 8 - sp.x.toNat) = sp.x.toNat - 1 - x := by omega
  rw [spriteColor, if_pos h]
  dsimp only
  rw [hpattern, hcolumn, colorNumber_eq]

theorem spriteShade_of_color {s : State} {x : Nat} {sp : Sprite} {cn : BitVec 2} (h : spriteColor s x sp = some cn)
    (under : BitVec 2) : spriteShade s x under sp =
      if cn = 0 ∨ (sp.attrs.getLsbD 7 = true ∧ under ≠ 0) then none
      else some ((raw s (if sp.attrs.getLsbD 4 then 0xFF49 else 0xFF48) >>> (cn.toNat * 2)).setWidth 2) := by
  rw [spriteShade, h, ite_or, ← shadeOf_eq]

theorem spriteShade_of_no_color {s : State} {x : Nat} {sp : Sprite} (h : spriteColor s x sp = none) (under : BitVec 2) :
    spriteShade s x under sp = none := by
  rw [spriteShade, h]

/-- Settles O60: where the sprite covers the column its colour number decides, elsewhere it has none. -/
theorem spriteShadesFollowAttributes : Obligations.SpriteShadesFollowAttributes := by
  intro s x under sp covers tall row tile turned column pattern number palette
  by_cases h : sp.x.toNat ≤ x + 8 ∧ x < sp.x.toNat
  · have hcovers : covers = true := decide_eq_true h
    have hnumber : spriteColor s x sp = some number := spriteColor_of_covers h
    rw [spriteShade_of_color hnumber, hcovers]
    simp only [Bool.true_eq_false, false_or]
    rfl
  · have hcovers : covers = false := decide_eq_false h
    exact (spriteShade_of_no_color (if_neg h) under).trans (if_pos (Or.inl hcovers)).symm

end Sys2Proof.Machine
end

section
/-! The PPU's sequencer (60_exceptions R360 to R363): first what each operation of a transition does to LY, STAT and IF, then
the transitions. -/

namespace Sys2Proof.Machine

/-! ## Bits of STAT (R34, R361) -/

/-- A mode change writes bits 1..0 of STAT (R361). -/
theorem stat_setMode_getLsbD (x : Byte) (m : PpuMode) {b : Nat} (hb : b < 8) :
    ((x &&& 0xFC) ||| m.code).getLsbD b = if b < 2 then m.code.getLsbD b else x.getLsbD b := by
  cases m <;> interval_cases b <;> simp [PpuMode.code]

/-! ## What a transition writes, operation by operation (R360 to R363) -/

/-- In a transition that has come from `u` to `t`: LY and the mode, in their fields and in storage, the coincidence bit, the
requests made so far (`vblank` in bit 0 of IF, `stat` in bit 1), and nothing else changed. -/
structure PpuRegs (u t : State) (line : Nat) (mode : PpuMode) (vblank stat : Bool) : Prop where
  state : ∃ m, t = { u with mem := m, ppuMode := mode, ly := line }
  ly : (raw t 0xFF44).toNat = line
  statReg : ∀ b, b < 8 → (raw t 0xFF41).getLsbD b =
    if b < 2 then mode.code.getLsbD b else if b = 2 then decide (line = (raw u 0xFF45).toNat) else (raw u 0xFF41).getLsbD b
  requests : ∀ b, b < 8 → (raw t 0xFF0F).getLsbD b =
    ((raw u 0xFF0F).getLsbD b || (decide (b = 0) && vblank) || (decide (b = 1) && stat))
  frame : ∀ k : Word, k ≠ 0xFF41 → k ≠ 0xFF44 → k ≠ 0xFF0F → raw t k = raw u k

/-- A transition begins with LY and STAT in order (R36 items 2 to 4). -/
theorem PpuRegs.refl {u : State} (hl : u.LyOk) (hm : u.ModeOk) (hc : u.CoincidenceOk) :
    PpuRegs u u u.ly u.ppuMode false false where
  state := ⟨u.mem, rfl⟩
  ly := hl.2
  statReg b hb := by
    split
    case isTrue h =>
      have h3 : (0x03 : Byte).getLsbD b = true := by interval_cases b <;> rfl
      rw [← hm, BitVec.getLsbD_and, h3, Bool.and_true]
    case isFalse =>
      split
      case isTrue h => rw [h, hc, beq_eq_decide]
      case isFalse => rfl
  requests b _ := by simp only [Bool.and_false, Bool.or_false]
  frame _ _ _ _ := rfl

section
variable {u t : State} {line : Nat} {mode : PpuMode} {vblank stat : Bool}

theorem PpuRegs.setMode (h : PpuRegs u t line mode vblank stat) (m : PpuMode) :
    PpuRegs u (Machine.setMode t m) line m vblank stat := by
  have hraw (k : Word) : raw (Machine.setMode t m) k = if k = 0xFF41 then (raw t 0xFF41 &&& 0xFC) ||| m.code else raw t k :=
    raw_rawWrite_io_eq t _ k (by decide)
  refine ⟨?_, ?_, fun b hb => ?_, fun b hb => ?_, fun k h1 h4 hF => ?_⟩
  · obtain ⟨mem, rfl⟩ := h.state
    exact ⟨_, rfl⟩
  · rw [hraw, if_neg (by decide), h.ly]
  · rw [hraw, if_pos rfl, stat_setMode_getLsbD _ _ hb, h.statReg b hb]
    split <;> rfl
  · rw [hraw, if_neg (by decide), h.requests b hb]
  · rw [hraw, if_neg h1, h.frame k h1 h4 hF]

/-- A request of interrupt 0 or 1 (R311). -/
theorem PpuRegs.request (h : PpuRegs u t line mode vblank stat) {i : Nat} (hi : i < 2) :
    PpuRegs u (Machine.request t i) line mode (vblank || decide (i = 0)) (stat || decide (i = 1)) := by
  have hraw := raw_request_eq t i
  refine ⟨?_, ?_, fun b hb => ?_, fun b hb => ?_, fun k h1 h4 hF => ?_⟩
  · obtain ⟨mem, rfl⟩ := h.state
    exact ⟨_, rfl⟩
  · rw [hraw, if_neg (by decide), h.ly]
  · rw [hraw, if_neg (by decide), h.statReg b hb]
  · rw [hraw, if_pos rfl, or_request_getLsbD _ (by omega), h.requests b hb]
    interval_cases i
    · by_cases h0 : b = 0 <;> simp [h0]
    · by_cases h1 : b = 1 <;> simp [h1]
  · rw [hraw, if_neg hF, h.frame k h1 h4 hF]

theorem PpuRegs.requestStat (h : PpuRegs u t line mode vblank stat) {b : Nat} (hb : 3 ≤ b) (hb8 : b < 8) :
    PpuRegs u (Machine.requestStat t b) line mode vblank (stat || (raw u 0xFF41).getLsbD b) := by
  have hbit : (raw t 0xFF41).getLsbD b = (raw u 0xFF41).getLsbD b := by
    rw [h.statReg b hb8, if_neg (by omega), if_neg (by omega)]
  rcases requestStat_cases t b with ⟨hset, e⟩ | ⟨hset, e⟩ <;> rw [e, ← hbit, hset]
  · have h1 := h.request (i := 1) (by decide)
    simpa using h1
  · rwa [Bool.or_false]

/-- LY, its mirror and the coincidence bit written (R363). -/
theorem PpuRegs.writeLy (h : PpuRegs u t line mode vblank stat) {n : Nat} (hn : n < 256) {e : Bool}
    (he : e = decide (n = (raw u 0xFF45).toNat)) :
    PpuRegs u (rawWrite { rawWrite t 0xFF44 (BitVec.ofNat 8 n) with ly := n } 0xFF41 (withCoincidence (raw t 0xFF41) e))
      n mode vblank stat := by
  have hline (k : Word) : raw { rawWrite t 0xFF44 (BitVec.ofNat 8 n) with ly := n } k =
      if k = 0xFF44 then BitVec.ofNat 8 n else raw t k := raw_rawWrite_io_eq t _ k (by decide)
  have hraw (k : Word) := raw_rawWrite_io_eq { rawWrite t 0xFF44 (BitVec.ofNat 8 n) with ly := n } (a := 0xFF41)
    (withCoincidence (raw t 0xFF41) e) k (by decide)
  refine ⟨?_, ?_, fun b hb => ?_, fun b hb => ?_, fun k h1 h4 hF => ?_⟩
  · obtain ⟨mem, rfl⟩ := h.state
    exact ⟨_, rfl⟩
  · rw [hraw, if_neg (by decide), hline, if_pos rfl, BitVec.toNat_ofNat, Nat.mod_eq_of_lt hn]
  · rw [hraw, if_pos rfl, withCoincidence_getLsbD _ _ hb, h.statReg b hb, he]
    by_cases h2 : b = 2
    · rw [if_pos h2, if_neg (by omega), if_pos h2]
    · rw [if_neg h2, if_neg h2, if_neg h2]
  · rw [hraw, if_neg (by decide), hline, if_neg (by decide), h.requests b hb]
  · rw [hraw, if_neg h1, hline, if_neg h4, h.frame k h1 h4 hF]

theorem PpuRegs.setLy (h : PpuRegs u t line mode vblank stat) {n : Nat} (hn : n < 256) :
    PpuRegs u (Machine.setLy t n) n mode vblank
      (stat || (decide (n = (raw u 0xFF45).toNat) && (raw u 0xFF41).getLsbD 6)) := by
  have hlyc : raw t 0xFF45 = raw u 0xFF45 := h.frame _ (by decide) (by decide) (by decide)
  rcases setLy_cases t n with ⟨heq, e⟩ | ⟨hne, e⟩ <;> rw [e]
  · rw [hlyc] at heq
    rw [decide_eq_true heq, Bool.true_and]
    exact (h.writeLy hn (decide_eq_true heq).symm).requestStat (by decide) (by decide)
  · rw [hlyc] at hne
    rw [decide_eq_false hne, Bool.false_and, Bool.or_false]
    exact h.writeLy hn (decide_eq_false hne).symm

end

/-! ## The transitions (R360 to R362) -/

/-- The line after the transition out of the current mode. -/
@[simp] def nextLine (s : State) : Nat :=
  match s.ppuMode with
  | .oamScan | .drawing => s.ly
  | .hblank => s.ly + 1
  | .vblank => if s.ly = 153 then 0 else s.ly + 1

/-- The mode after the transition. -/
@[simp] def nextMode (s : State) : PpuMode :=
  match s.ppuMode with
  | .oamScan => .drawing
  | .drawing => .hblank
  | .hblank => if nextLine s = 144 then .vblank else .oamScan
  | .vblank => if nextLine s = 0 then .oamScan else .vblank

/-- STAT enables a request on entering the mode. -/
@[simp] def modeEnabled (stat : Byte) : PpuMode → Bool
  | .drawing => false
  | .hblank => stat.getLsbD 3
  | .vblank => stat.getLsbD 4
  | .oamScan => stat.getLsbD 5

/-- The transition requests interrupt 1, by a new line that is LYC or by a new mode. -/
@[simp] def statRequested (s : State) : Bool :=
  (decide (nextLine s ≠ s.ly) && decide (nextLine s = (raw s 0xFF45).toNat) && (raw s 0xFF41).getLsbD 6) ||
    (decide (nextMode s ≠ s.ppuMode) && modeEnabled (raw s 0xFF41) (nextMode s))

/-- The transition requests interrupt 0. -/
@[simp] def vblankRequested (s : State) : Bool := decide (nextMode s ≠ s.ppuMode ∧ nextMode s = .vblank)

/-- The OAM scan on leaving OAM_SCAN, the drawn line on leaving DRAWING. -/
def scanOrDraw (s : State) : State :=
  { s with
    sprites := if s.ppuMode = .oamScan then (oamScan s).sprites else s.sprites
    pixelOut := if s.ppuMode = .drawing then (renderScanline s).pixelOut else s.pixelOut }

theorem scanOrDraw_of_oamScan {s : State} (h : s.ppuMode = .oamScan) : scanOrDraw s = oamScan s := by
  rw [scanOrDraw, if_pos h, if_neg (by rw [h]; decide)]
  rfl

theorem scanOrDraw_of_drawing {s : State} (h : s.ppuMode = .drawing) : scanOrDraw s = renderScanline s := by
  rw [scanOrDraw, if_neg (by rw [h]; decide), if_pos h]
  rfl

theorem scanOrDraw_of_blank {s : State} (h : s.ppuMode = .hblank ∨ s.ppuMode = .vblank) : scanOrDraw s = s := by
  rw [scanOrDraw, if_neg (by rcases h with h | h <;> rw [h] <;> decide),
    if_neg (by rcases h with h | h <;> rw [h] <;> decide)]

/-- What the transition out of the current mode does, in each of its six forms. -/
theorem leaveMode_regs {s : State} (h : DevicesOk s) :
    PpuRegs (scanOrDraw s) (leaveMode s) (nextLine s) (nextMode s) (vblankRequested s) (statRequested s) := by
  have hly := h.ly.1
  have hnext : PpuRegs s (setLy s (s.ly + 1)) (s.ly + 1) s.ppuMode false
      (decide (s.ly + 1 = (raw s 0xFF45).toNat) && (raw s 0xFF41).getLsbD 6) :=
    (PpuRegs.refl h.ly h.mode h.coincidence).setLy (by omega)
  have hfirst : PpuRegs s (setLy s 0) 0 s.ppuMode false
      (decide (0 = (raw s 0xFF45).toNat) && (raw s 0xFF41).getLsbD 6) :=
    (PpuRegs.refl h.ly h.mode h.coincidence).setLy (by omega)
  rcases leaveMode_cases s with ⟨hm, e⟩ | ⟨hm, e⟩ | ⟨hm, hl, e⟩ | ⟨hm, hl, e⟩ | ⟨hm, hl, e⟩ | ⟨hm, hl, e⟩ <;> rw [e]
  · rw [scanOrDraw_of_oamScan hm]
    have h1 : PpuRegs (oamScan s) (setMode (oamScan s) .drawing) s.ly .drawing false false :=
      (PpuRegs.refl (u := oamScan s) h.ly h.mode h.coincidence).setMode .drawing
    simpa [hm] using h1
  · rw [scanOrDraw_of_drawing hm]
    have h1 : PpuRegs (renderScanline s) (requestStat (setMode (renderScanline s) .hblank) 3) s.ly .hblank false
        ((raw s 0xFF41).getLsbD 3) :=
      ((PpuRegs.refl (u := renderScanline s) h.ly h.mode h.coincidence).setMode .hblank).requestStat (b := 3)
        (by decide) (by decide)
    simpa [hm] using h1
  · rw [scanOrDraw_of_blank (.inl hm)]
    have hne : 144 ≠ s.ly := by omega
    have h1 := ((hnext.setMode .vblank).request (i := 0) (by decide)).requestStat (b := 4) (by decide) (by decide)
    simpa [hm, hl, hne] using h1
  · rw [scanOrDraw_of_blank (.inl hm)]
    have h1 := (hnext.setMode .oamScan).requestStat (b := 5) (by decide) (by decide)
    simpa [hm, hl] using h1
  · rw [scanOrDraw_of_blank (.inr hm)]
    have h1 := (hfirst.setMode .oamScan).requestStat (b := 5) (by decide) (by decide)
    simpa [hm, hl] using h1
  · rw [scanOrDraw_of_blank (.inr hm)]
    simpa [hm, hl] using hnext

/-- Settles O57: with at most 44 T-cycles one transition is made at most, one of the six. -/
theorem ppuTransitions : Obligations.PpuTransitions := by
  intro s t c hinv hc ht
  rcases ppuStep_cases hinv.ppuCounter hc with ⟨hlt, e⟩ | ⟨hge, e⟩
  · exact ⟨fun _ => ht.trans e, fun hge => absurd hge (Nat.not_le_of_lt hlt)⟩
  · refine ⟨fun hlt => absurd hge (Nat.not_le_of_lt hlt), fun _ => ?_⟩
    have hdev : DevicesOk { s with ppuCounter := s.ppuCounter + c - s.ppuMode.duration } :=
      hinv.devicesOk.congr rfl rfl rfl rfl rfl rfl
    have h := leaveMode_regs hdev
    rw [← e, ← ht] at h
    obtain ⟨m, hm⟩ := h.state
    refine ⟨?_, h.ly, h.statReg, h.requests, h.frame⟩
    rw [hm]
    rfl

end Sys2Proof.Machine
end

section
/-! Power-on (70_reset R400, R401): which byte of the cartridge file storage holds after the load, then what step 6
of the procedure writes over it. -/

namespace Sys2Proof.Machine

/-! ## The cartridge load (R401) -/

/-- The load of a file with one more byte at its end: that byte is stored last, if it is within the 64 KiB. -/
theorem loadFrom_concat (cs : List Byte) (v : Byte) (i : Nat) (m : Memory) :
    loadFrom (cs ++ [v]) i m =
      if i + cs.length < 0x10000 then (loadFrom cs i m).write (phys (BitVec.ofNat 16 (i + cs.length))) v
      else loadFrom cs i m := by
  induction cs generalizing i m with
  | nil => rfl
  | cons c cs ih =>
    have hlen : i + 1 + cs.length = i + (c :: cs).length := by rw [List.length_cons]; omega
    rw [List.cons_append, loadFrom, loadFrom]
    by_cases hi : i < 0x10000
    · rw [if_pos hi, if_pos hi, ih, hlen]
    · rw [if_neg hi, if_neg hi, if_neg (by omega)]

/-- The byte of the file that the load stores last at storage address `a`, 0 if there is none: the file bytes of the
echo come after those of the work RAM they alias (R401; log 22). -/
def loadedByte (cart : List Byte) (a : Nat) : Byte :=
  if 0xC000 ≤ a ∧ a ≤ 0xDDFF ∧ a + 0x2000 < cart.length then cart.getD (a + 0x2000) 0 else cart.getD a 0

theorem getD_concat (cs : List Byte) (v : Byte) (n : Nat) :
    (cs ++ [v]).getD n 0 = if n = cs.length then v else cs.getD n 0 := by
  rcases Nat.lt_trichotomy n cs.length with h | rfl | h
  · rw [List.getD_append _ _ _ _ h, if_neg (Nat.ne_of_lt h)]
  · rw [List.getD_append_right _ _ _ _ (Nat.le_refl _), if_pos rfl, Nat.sub_self, List.getD_cons_zero]
  · rw [List.getD_eq_default _ _ (by simpa using h), if_neg (Nat.ne_of_gt h),
      List.getD_eq_default _ _ (Nat.le_of_lt h)]

/-- The file bytes that the load stores at an address outside the echo: the byte of that number and, for work RAM, the
one 0x2000 further on (R42, R401). -/
theorem lands_iff {k : Word} (hk : phys k = k.toNat) (n : Nat) :
    (n < 0x10000 ∧ k.toNat = phys (BitVec.ofNat 16 n)) ↔
      n = k.toNat ∨ (0xC000 ≤ k.toNat ∧ k.toNat ≤ 0xDDFF ∧ n = k.toNat + 0x2000) := by
  have hlt := k.isLt
  unfold phys at hk ⊢
  rw [BitVec.toNat_ofNat]
  by_cases hn : n < 0x10000
  · rw [Nat.mod_eq_of_lt hn]
    by_cases hecho : 0xE000 ≤ n ∧ n ≤ 0xFDFF
    · rw [if_pos hecho]; split at hk <;> omega
    · rw [if_neg hecho]; split at hk <;> omega
  · omega

/-- One more byte in the file changes the byte at an address exactly where it lands. -/
theorem loadedByte_concat (cs : List Byte) (v : Byte) {k : Word} (hk : phys k = k.toNat) :
    loadedByte (cs ++ [v]) k.toNat =
      if cs.length < 0x10000 ∧ k.toNat = phys (BitVec.ofNat 16 cs.length) then v else loadedByte cs k.toNat := by
  simp only [lands_iff hk, loadedByte, getD_concat, List.length_append, List.length_singleton]
  by_cases hram : 0xC000 ≤ k.toNat ∧ k.toNat ≤ 0xDDFF
  · rcases Nat.lt_trichotomy (k.toNat + 0x2000) cs.length with h | h | h
    · rw [if_pos (by omega), if_neg (by omega), if_neg (by omega), if_pos (by omega)]
    · rw [if_pos (by omega), if_pos h, if_pos (by omega)]
    · rw [if_neg (by omega), if_neg (show ¬(_ ∧ _ ∧ _ < cs.length) by omega)]
      exact if_congr (by omega) rfl rfl
  · rw [if_neg (by omega), if_neg (show ¬(_ ∧ _ ∧ _ < cs.length) by omega)]
    exact if_congr (by omega) rfl rfl

/-- Storage after the load, outside the echo. -/
theorem loadCart_read (cart : List Byte) {k : Word} (hk : phys k = k.toNat) :
    (loadCart cart).read k.toNat = loadedByte cart k.toNat := by
  induction cart using List.reverseRecOn with
  | nil =>
    have hfile : loadedByte [] k.toNat = 0 := by rw [loadedByte, if_neg (fun h => nomatch h.2.2), List.getD_nil]
    rw [hfile, loadCart, loadFrom, Memory.read_write]
    split
    case isTrue => rfl
    case isFalse h => exact if_neg h
  | append_singleton cs v ih =>
    rw [loadedByte_concat cs v hk, ← ih, loadCart, loadFrom_concat, Nat.zero_add]
    by_cases hn : cs.length < 0x10000
    · rw [if_pos hn, Memory.read_write]
      simp only [hn, true_and]
      rfl
    · rw [if_neg hn, if_neg fun h => hn h.1]
      rfl

/-! ## Step 6 of the procedure (R400) -/

/-- Storage after step 6: LY's mirror and STAT written, every other byte as it was. -/
theorem raw_resetPpu (s : State) (k : Word) : raw (resetPpu s) k =
    if k = 0xFF41 then (raw s 0xFF41 &&& 0xF8) ||| 0x02 ||| (if raw s 0xFF45 = 0 then 0x04 else 0)
    else if k = 0xFF44 then 0 else raw s k := by
  have hly (k : Word) :
      raw { rawWrite s 0xFF44 0 with ppuMode := .oamScan, ppuCounter := 0, ly := 0, sprites := [] } k =
        if k = 0xFF44 then 0 else raw s k := raw_rawWrite_io_eq s (a := 0xFF44) 0 k (by decide)
  rw [resetPpu, raw_rawWrite_io_eq _ _ k (by decide), (hly 0xFF41).trans (if_neg (by decide)),
    (hly 0xFF45).trans (if_neg (by decide)), hly k]

/-- Storage at power-on, outside the echo. -/
theorem raw_powerOn (cfg : Config) (cart : List Byte) (regs : ResetRegs) {k : Word} (hk : phys k = k.toNat) :
    raw (powerOn cfg cart regs) k =
      if k = 0xFF41 then (cart.getD 0xFF41 0 &&& 0xF8) ||| 0x02 ||| (if cart.getD 0xFF45 0 = 0 then 0x04 else 0)
      else if k = 0xFF44 then 0 else loadedByte cart k.toNat := by
  have hload (s : State) (hs : s.mem = loadCart cart) {k : Word} (hk : phys k = k.toNat) :
      raw s k = loadedByte cart k.toNat := by rw [raw, hs, hk, loadCart_read cart hk]
  rw [powerOn, raw_resetPpu, hload _ rfl hk, hload _ rfl (k := 0xFF41) (by decide),
    hload _ rfl (k := 0xFF45) (by decide)]
  rfl

/-- Settles O7: every field is set by the procedure; every byte is the load's, or one of the two of step 6. -/
theorem powerOnSetsTheState : Obligations.PowerOnSetsTheState := by
  rintro cfg cart regs _ rfl
  refine ⟨⟨rfl, rfl, rfl, rfl, rfl, rfl, rfl, rfl, rfl, rfl⟩,
    ⟨rfl, rfl, rfl, rfl, rfl, rfl, rfl, rfl, rfl, rfl, rfl, rfl, rfl, rfl, rfl, rfl, rfl⟩, ⟨rfl, rfl, rfl, rfl⟩,
    ?ly, ?stat, fun k hk hly hstat => ?byte⟩
  case ly => rw [raw_powerOn cfg cart regs (by decide), if_neg (by decide), if_pos rfl]
  case stat => rw [raw_powerOn cfg cart regs (by decide), if_pos rfl]
  case byte =>
    rw [raw_powerOn cfg cart regs hk, if_neg hstat, if_neg hly]
    rfl

end Sys2Proof.Machine
end
